-- ==== Sys2Proof/Word.lean ====
section
/-! DEFINITION. The byte and the byte string (spec R12, R70), and the two-byte array `Byte2` of R103. -/

namespace Sys2Proof

/-- R12: an 8-bit unsigned value; bit 7 is the most significant.  The block never reads it as signed. -/
abbrev Byte := BitVec 8

/-- R12, R70: a byte string, index 0 first on the wire.  Its length is the list's length. -/
abbrev Bytes := List Byte

/-- R103: a `Byte2` field, exactly two bytes.  It is an array in index order and never a number (R74). -/
structure Byte2 where
  b0 : Byte
  b1 : Byte
  deriving DecidableEq, Repr, Inhabited

/-- R74: the two bytes in index order, byte 0 first. -/
def Byte2.toBytes (p : Byte2) : Bytes := [p.b0, p.b1]

/-- R12: `zeros(n)`, the string of `n` bytes 0x00. -/
def zeros (n : Nat) : Bytes := List.replicate n 0x00

end Sys2Proof
end

