-- ==== Sys2Proof/Config.lean ====
section
/-! DEFINITION. The configuration record `Cfg` of spec R9 and R10, its constraints, the one configuration the
machine runs under, which is left open, and the BUS answers no script gives, left open too. -/

namespace Sys2Proof

/-- R120: the wire-level status carried by a one-byte response body, a closed enumeration of eight values. -/
inductive DeviceStatus where
  | success
  | macMismatch
  | parseError
  | execFault
  | execError
  | awake
  | commError
  | nak
  deriving DecidableEq, Repr, Inhabited

/-- R10: the configuration fields.  No operation writes one (R9), so they are not in State. -/
structure Cfg where
  /-- `MAX_FRAME`: the largest command frame in bytes. -/
  maxFrame    : Nat
  /-- `MAX_ATTEMPTS`: the largest number of SEND attempts of one EXECUTE (conflict C8). -/
  maxAttempts : Nat
  /-- `RSP_CAP`: the `maxLen` of each read and the capacity given to the validator. -/
  rspCap      : Nat
  /-- `CHECKSUM`: the two checksum bytes in wire order (R118). -/
  checksum    : Bytes → Byte2
  /-- `DIGEST`: the Digest Provider's `hash`, 32 bytes. -/
  digest      : Bytes → Vector Byte 32
  /-- `STATUS_MAP`: a partial map from the status byte. -/
  statusMap   : Byte → Option DeviceStatus
  /-- `CR_OPCODE`, the fixed opcode byte of the challenge-response message. -/
  crOpcode    : Byte
  /-- `SN8_CONST`, the fixed serial-number byte of the message. -/
  sn8Const    : Byte
  /-- `SN01_CONST`, the fixed two-byte serial-number constant of the message. -/
  sn01Const   : Byte2
  /-- `SLOT_ENC`: the two parameter bytes of a key slot 0 to 15. -/
  slotEnc     : Nat → Byte2
  /-- `TIME_UNIT`: the unit of `texec`; no rule depends on it. -/
  timeUnit    : String
  deriving Inhabited

/-- R117 (c): two strings of one length that differ in exactly one byte have different checksums. -/
def Cfg.DetectsSingleByte (f : Bytes → Byte2) : Prop :=
  ∀ (p q : Bytes) (a b : Byte), a ≠ b → f (p ++ a :: q) ≠ f (p ++ b :: q)

/-- A checksum that meets R117 (c), used only to show that the constraints can be met together. -/
def Cfg.xorSum (s : Bytes) : Byte2 := ⟨s.foldr (· ^^^ ·) 0, 0⟩

theorem Cfg.xorSum_foldr_append (p q : Bytes) :
    (p ++ q).foldr (· ^^^ ·) (0 : Byte) = p.foldr (· ^^^ ·) 0 ^^^ q.foldr (· ^^^ ·) 0 := by
  induction p with
  | nil => simp
  | cons a p ih => rw [List.cons_append, List.foldr_cons, ih, List.foldr_cons, BitVec.xor_assoc]

theorem Cfg.xorSum_detects : Cfg.DetectsSingleByte Cfg.xorSum := by
  intro p q a b hab h
  have h' := congrArg Byte2.b0 h
  simp only [Cfg.xorSum, Cfg.xorSum_foldr_append, List.foldr_cons] at h'
  rw [BitVec.xor_right_inj, BitVec.xor_left_inj] at h'
  exact hab h'

/-- A configuration that meets every constraint of R10, used only to show that one exists; every value in it that R10
leaves open is arbitrary (DESIGN CHOICE, safe, log entry 1). -/
def Cfg.inhabitant : Cfg where
  maxFrame    := 255
  maxAttempts := 1
  rspCap      := 255
  checksum    := Cfg.xorSum
  digest      := fun _ => Vector.replicate 32 0
  statusMap   := fun b => if b = 0x00 then some .success else if b = 0xAA then some .nak else none
  crOpcode    := 0
  sn8Const    := 0
  sn01Const   := ⟨0, 0⟩
  slotEnc     := fun s => ⟨BitVec.ofNat 8 s, 0⟩
  timeUnit    := ""

theorem Cfg.inhabitant_statusMap_inj (a b : Byte) (st : DeviceStatus)
    (ha : Cfg.inhabitant.statusMap a = some st) (hb : Cfg.inhabitant.statusMap b = some st) : a = b := by
  simp only [Cfg.inhabitant] at ha hb
  split_ifs at ha hb <;> simp_all <;> exact absurd (ha.trans hb.symm) (by decide)

/-- R343: a configuration together with the evidence that it meets every constraint of R10, so that one that
does not cannot be built.  The defaults serve only to show that the type is not empty. -/
structure ValidCfg where
  val             : Cfg := Cfg.inhabitant
  maxFrame_ge     : 7 ≤ val.maxFrame := by decide
  maxFrame_le     : val.maxFrame ≤ 255 := by decide
  maxAttempts_pos : 1 ≤ val.maxAttempts := by decide
  rspCap_ge       : 4 ≤ val.rspCap := by decide
  rspCap_le       : val.rspCap ≤ 255 := by decide
  detects         : Cfg.DetectsSingleByte val.checksum := by exact Cfg.xorSum_detects
  status_zero     : val.statusMap 0x00 = some .success := by decide
  status_nak      : val.statusMap 0xAA = some .nak := by decide
  status_inj      : ∀ (a b : Byte) (st : DeviceStatus),
      val.statusMap a = some st → val.statusMap b = some st → a = b := by exact Cfg.inhabitant_statusMap_inj
  slot_inj        : ∀ i < 16, ∀ j < 16, val.slotEnc i = val.slotEnc j → i = j := by decide
  deriving Inhabited

/-- The configuration the block was instantiated with: any one that meets R10 (DESIGN CHOICE,
safe, log entry 1).  It has no body,
so a statement about the machine holds for every such configuration. -/
opaque Config.validCfg : ValidCfg

/-- R9, R10: the machine's configuration. -/
abbrev Config.cfg : Cfg := Config.validCfg.val

/-- The answer of the `k`-th `BusWake` that no script in State answers (R78; DESIGN CHOICE,
safe, log entry 2). -/
opaque Config.freeWake : Nat → Bool

/-- The count the BUS answers to the `k`-th `BusWrite` that no script in State answers (R78; DESIGN CHOICE,
safe, log entry 2). -/
opaque Config.freeWriteCount : Nat → Nat

/-- The bytes the BUS answers to the `k`-th `BusRead` that no script in State answers (R78; DESIGN CHOICE,
safe, log entry 2). -/
opaque Config.freeRead : Nat → Bytes

end Sys2Proof
end

