-- ==== Sys2Proof/Syntax.lean ====
section
/-! DEFINITION. The operations of OPS-1 (spec R8) with the operand records of R103: one constructor per row
of the opcode table. -/

namespace Sys2Proof

/-- R110: the Command Descriptor.  `opcode`, `param1` and `param2` are opaque to the block; `texec` is the
estimated execution time in TIME_UNIT and is used by EXECUTE's wait only (R184). -/
structure CommandDescriptor where
  opcode  : Byte
  param1  : Byte
  param2  : Byte2
  payload : Bytes
  texec   : Nat
  deriving DecidableEq, Repr, Inhabited

/-- R8: the names of the five operations, the values `OP_ACTIVE` and `RESULT.op` take. -/
inductive OpName where
  | serialize
  | execute
  | validate
  | crCompute
  | crVerify
  deriving DecidableEq, Repr, Inhabited

/-- R100, R103: an operation request, its operands in the order R103 lists them. -/
inductive Instr where
  /-- SERIALIZE (R150). -/
  | serialize (desc : CommandDescriptor)
  /-- EXECUTE (R180). -/
  | execute (desc : CommandDescriptor)
  /-- VALIDATE (R220). -/
  | validate (raw : Bytes) (cap : Nat)
  /-- CR_COMPUTE (R250). -/
  | crCompute (challenge key : Bytes) (mode : Byte) (param2 : Byte2) (otp8 otp3 sn4 sn23 : Bytes)
  /-- CR_VERIFY (R260). -/
  | crVerify (challenge expected key : Bytes) (slot : Nat)
  deriving DecidableEq, Repr, Inhabited

/-- The operation a request names. -/
def Instr.op : Instr → OpName
  | .serialize _ => .serialize
  | .execute _ => .execute
  | .validate _ _ => .validate
  | .crCompute _ _ _ _ _ _ _ _ => .crCompute
  | .crVerify _ _ _ _ => .crVerify

end Sys2Proof
end

