-- ==== Sys2Proof/WellFormed.lean ====
section
/-! DEFINITION. The ranges of the operand fields (spec R103): `cap` and `slot` are 0..255; every other field
takes every value of its type.  Lengths of buffer operands are preconditions of the operations, not of the
format (R103). -/

namespace Sys2Proof

/-- R103: the request's number operands are in the range the format gives them. -/
def Instr.wellFormed : Instr → Bool
  | .serialize _ => true
  | .execute _ => true
  | .validate _ cap => decide (cap ≤ 255)
  | .crCompute _ _ _ _ _ _ _ _ => true
  | .crVerify _ _ _ slot => decide (slot ≤ 255)

end Sys2Proof
end

