-- ==== Sys2Proof/Decode.lean ====
section
/-! DEFINITION. The request format (spec R100 to R103): a request arrives as bytes, the OPSEL byte first and
then the operand record's fields in R103's order.  The spec fixes OPSEL and the record's fields, not how a field of
any length travels.  That transport form is the model's choice (DESIGN CHOICE, unsafe for claims about those bytes,
log entry 3): an unlimited number is a run of bytes 0xFF each worth 255 and one closing byte below 0xFF, and a
`Bytes` field is its length as such a number and then its bytes. -/

namespace Sys2Proof

/-- Why a byte string is no request. -/
inductive DecodeError where
  /-- The string holds no OPSEL byte. -/
  | noOpsel
  /-- R102: an OPSEL that selects no operation. -/
  | reservedOpsel (opsel : Byte)
  /-- A field of the operand record is missing or cut short (R103: field types are exact). -/
  | truncated
  /-- Bytes stand after the operand record (R103). -/
  | trailing
  deriving DecidableEq, Repr

/-- R101: the OPSEL byte of each operation. -/
def OpName.opsel : OpName → Byte
  | .serialize => 0x01
  | .execute   => 0x02
  | .validate  => 0x03
  | .crCompute => 0x04
  | .crVerify  => 0x05

/-- R101, R102: the operation an OPSEL byte selects; 0x00 and 0x06..0xFF select none. -/
def selectOp (b : Byte) : Option OpName :=
  if b = 0x01 then some .serialize
  else if b = 0x02 then some .execute
  else if b = 0x03 then some .validate
  else if b = 0x04 then some .crCompute
  else if b = 0x05 then some .crVerify
  else none

/-- One `Byte` field from the front of the operand record. -/
def readByte : Bytes → Except DecodeError (Byte × Bytes)
  | [] => .error .truncated
  | b :: r => .ok (b, r)

/-- One `Byte2` field, byte 0 first (R74). -/
def readByte2 : Bytes → Except DecodeError (Byte2 × Bytes)
  | b0 :: b1 :: r => .ok (⟨b0, b1⟩, r)
  | _ => .error .truncated

/-- One `Nat` field limited to 0..255 (`cap`, `slot`: R103), one byte. -/
def readSmall : Bytes → Except DecodeError (Nat × Bytes)
  | [] => .error .truncated
  | b :: r => .ok (b.toNat, r)

/-- One unlimited `Nat` (a length, or `texec`) in the transport form of log entry 3. -/
def readNat : Bytes → Except DecodeError (Nat × Bytes)
  | [] => .error .truncated
  | b :: r =>
    if b = 0xFF then
      match readNat r with
      | .ok (n, r') => .ok (n + 255, r')
      | .error e => .error e
    else .ok (b.toNat, r)

/-- One `Bytes` field: its length, then that many bytes. -/
def readBytes (s : Bytes) : Except DecodeError (Bytes × Bytes) :=
  match readNat s with
  | .error e => .error e
  | .ok (n, r) => if n ≤ r.length then .ok (r.take n, r.drop n) else .error .truncated

/-- R110: a Command Descriptor, its fields in the rule's order. -/
def readDescriptor (s : Bytes) : Except DecodeError (CommandDescriptor × Bytes) := do
  let (opcode, s) ← readByte s
  let (param1, s) ← readByte s
  let (param2, s) ← readByte2 s
  let (payload, s) ← readBytes s
  let (texec, s) ← readNat s
  return (⟨opcode, param1, param2, payload, texec⟩, s)

/-- R103: the operand record of each operation. -/
def readOperands (op : OpName) (s : Bytes) : Except DecodeError (Instr × Bytes) :=
  match op with
  | .serialize => do
    let (desc, s) ← readDescriptor s
    return (.serialize desc, s)
  | .execute => do
    let (desc, s) ← readDescriptor s
    return (.execute desc, s)
  | .validate => do
    let (raw, s) ← readBytes s
    let (cap, s) ← readSmall s
    return (.validate raw cap, s)
  | .crCompute => do
    let (challenge, s) ← readBytes s
    let (key, s) ← readBytes s
    let (mode, s) ← readByte s
    let (param2, s) ← readByte2 s
    let (otp8, s) ← readBytes s
    let (otp3, s) ← readBytes s
    let (sn4, s) ← readBytes s
    let (sn23, s) ← readBytes s
    return (.crCompute challenge key mode param2 otp8 otp3 sn4 sn23, s)
  | .crVerify => do
    let (challenge, s) ← readBytes s
    let (expected, s) ← readBytes s
    let (key, s) ← readBytes s
    let (slot, s) ← readSmall s
    return (.crVerify challenge expected key slot, s)

/-- R100: the request at the front of a byte string, and the bytes after it.  Total; every string that begins
no request is rejected by name. -/
def decode : Bytes → Except DecodeError (Instr × Bytes)
  | [] => .error .noOpsel
  | opsel :: s =>
    match selectOp opsel with
    | none => .error (.reservedOpsel opsel)
    | some op => readOperands op s

/-- A byte string that is exactly one request. -/
def decodeRequest (s : Bytes) : Except DecodeError Instr :=
  match decode s with
  | .error e => .error e
  | .ok (i, []) => .ok i
  | .ok (_, _ :: _) => .error .trailing

/-! The encoder, written from the same rules. -/

/-- The transport form of an unlimited `Nat` (log entry 3). -/
def encodeNat (n : Nat) : Bytes := List.replicate (n / 255) 0xFF ++ [BitVec.ofNat 8 (n % 255)]

/-- The transport form of a `Bytes` field. -/
def encodeBytes (s : Bytes) : Bytes := encodeNat s.length ++ s

/-- R110: the fields of a Command Descriptor in the rule's order. -/
def encodeDescriptor (d : CommandDescriptor) : Bytes :=
  d.opcode :: d.param1 :: d.param2.toBytes ++ (encodeBytes d.payload ++ encodeNat d.texec)

/-- R103: the operand record. -/
def encodeOperands : Instr → Bytes
  | .serialize desc => encodeDescriptor desc
  | .execute desc => encodeDescriptor desc
  | .validate raw cap => encodeBytes raw ++ [BitVec.ofNat 8 cap]
  | .crCompute challenge key mode param2 otp8 otp3 sn4 sn23 =>
    encodeBytes challenge ++ (encodeBytes key ++ (mode :: param2.toBytes ++
      (encodeBytes otp8 ++ (encodeBytes otp3 ++ (encodeBytes sn4 ++ encodeBytes sn23)))))
  | .crVerify challenge expected key slot =>
    encodeBytes challenge ++ (encodeBytes expected ++ (encodeBytes key ++ [BitVec.ofNat 8 slot]))

/-- R100: the OPSEL byte (R101) and the operand record. -/
def encode (i : Instr) : Bytes := i.op.opsel :: encodeOperands i

/-! The opcode table's words. -/

/-- More zero bytes than any operand record of zeros is long (CR_COMPUTE's is 9). -/
def zeroOperands : Bytes := zeros 16

/-- The bytes of a word the opcode table numbers: bit 0 is the least significant bit of the first byte; every
bit above `nbits` is 0. -/
def tableWordBytes (nbits w : Nat) : Bytes :=
  (List.range (nbits / 8)).map (fun k => BitVec.ofNat 8 (w / 2 ^ (8 * k))) ++ zeroOperands

/-- The request such a word begins. -/
def decodeTableWord (nbits w : Nat) : Option Instr :=
  match decode (tableWordBytes nbits w) with
  | .ok (i, _) => some i
  | .error _ => none

/-- The same bytes cut to exactly one request, as the HOST presents it. -/
def tableWordRequest (nbits w : Nat) : Bytes :=
  let s := tableWordBytes nbits w
  match decode s with
  | .ok (_, rest) => s.take (s.length - rest.length)
  | .error _ => s

end Sys2Proof
end

