-- ==== Sys2Proof/Machine/State.lean ====
section
/-! DEFINITION. The state of the block (spec R32), of the ports' event trace (R84), and of the environment the
step reads: the HOST's moves and the BUS's answers.  All of it is plain data. -/

namespace Sys2Proof.Machine

/-- R33: the values of `ENG_STATE`.  The reserved codes 6 and 7 are never written and not represented. -/
inductive EngState where
  | idle
  | sent
  | awaitingResponse
  | success
  | retryableFailure
  | fatalFailure
  deriving DecidableEq, Repr, Inhabited

/-- R41: the library-level outcomes (the spec's type `Outcome`).  The reserved codes 9 to 15 are never written
and not represented. -/
inductive LibOutcome where
  | success
  | macMismatch
  | parseError
  | execFault
  | execError
  | awake
  | commError
  | nak
  | programmingError
  deriving DecidableEq, Repr, Inhabited

/-- R42: the precondition a PROGRAMMING_ERROR names. -/
inductive PErr where
  | oversize
  | badSlot
  | badLenChallenge
  | badLenKey
  | badLenOtp8
  | badLenOtp3
  | badLenSn4
  | badLenSn23
  | badLenExpected
  deriving DecidableEq, Repr, Inhabited

/-- R40: the result record.  `matched` is the spec's field `match`. -/
structure Result where
  op       : OpName
  outcome  : LibOutcome
  reason   : Option PErr
  frame    : Bytes
  payload  : Bytes
  digest   : Bytes
  matched  : Option Bool
  attempts : Nat
  deriving DecidableEq, Repr, Inhabited

/-- R32: the internal buffers. -/
inductive Buffer where
  | tx
  | rx
  | msg
  | dig
  deriving DecidableEq, Repr

/-- R70, R71: which internal buffers an operation has filled and not yet released.  A filled buffer may hold the
empty string (an empty read), so this is not told by the contents. -/
structure Held where
  tx  : Bool
  rx  : Bool
  msg : Bool
  dig : Bool
  deriving DecidableEq, Repr, Inhabited

/-- R71: every buffer released. -/
def Held.none : Held := ⟨false, false, false, false⟩

/-- R84: one event per port request. -/
inductive Event where
  /-- `WAKE(ok)`. -/
  | wake (ok : Bool)
  /-- `WRITE(s, n)`: the bytes written and the count answered. -/
  | write (s : Bytes) (n : Nat)
  /-- `WAIT(d)`. -/
  | wait (d : Nat)
  /-- `READ(m, r)`: the `maxLen` asked for and the bytes answered. -/
  | read (m : Nat) (r : Bytes)
  /-- `HASH(s, h)`. -/
  | hash (s h : Bytes)
  deriving DecidableEq, Repr

/-- R264: the steps of the fixed-time compare: one per byte pair, with its index, and the one test at the end. -/
inductive CmpStep where
  | accumulate (index : Nat)
  | test
  deriving DecidableEq, Repr

/-- The BUS agent's coming answers (R78), the model's own: a script for each kind of request, used from the
front, and the number of free answers drawn so far, which answer when a script is used up (DESIGN
CHOICE, safe, log entry 2). -/
structure BusAnswers where
  wakes  : List Bool
  writes : List Nat
  reads  : List Bytes
  drawn  : Nat
  deriving DecidableEq, Repr, Inhabited

/-- R81: the bus primitives the HOST calls itself, between operations. -/
inductive HostBusUse where
  | openBus
  | wake
  | idle
  deriving DecidableEq, Repr

/-- R46, R81, R319: what the HOST may do; and reset, for which R340, R341 and D30 name no agent and which R4, R46 and
R319 do not list among the HOST's moves: that the HOST issues it, and as a move of its queue, is the model's choice
(DESIGN CHOICE, log entry 20). -/
inductive HostMove where
  /-- Present a request, as bytes (R100). -/
  | request (bytes : Bytes)
  /-- Present a request and reset the block once it has issued `events` port requests (R341; that the HOST
  resets: DESIGN CHOICE, log entry 20; the moment: DESIGN CHOICE, log entry 6). -/
  | requestThenReset (bytes : Bytes) (events : Nat)
  /-- Reset the block, an operation active or not (R340, R341; that the HOST resets: DESIGN CHOICE, log entry 20). -/
  | reset
  /-- Read `RESULT` (R46). -/
  | readResult
  /-- Read `OP_ACTIVE`, the busy test (R32, R46). -/
  | readOpActive
  /-- Use the bus between operations (R81). -/
  | useBus (use : HostBusUse)
  deriving DecidableEq, Repr

/-- R32: the state of the block, and after it what a model of it needs beside it (from `trace` on: DESIGN CHOICE,
safe, log entry 8). -/
structure State where
  /-- `OP_ACTIVE` (R39); `none` is the spec's NONE. -/
  opActive  : Option OpName
  /-- `ENG_STATE` (R33). -/
  engState  : EngState
  /-- `ATTEMPT` (R34). -/
  attempt   : Nat
  /-- `TXBUF` (R35). -/
  txbuf     : Bytes
  /-- `RXBUF` (R36). -/
  rxbuf     : Bytes
  /-- `MSGBUF` (R37). -/
  msgbuf    : Bytes
  /-- `DIGBUF` (R38). -/
  digbuf    : Bytes
  /-- Which of the four buffers are filled and not released (R70, R71). -/
  held      : Held
  /-- `RESULT` (R40); `none` while it is not valid (R47). -/
  result    : Option Result
  /-- The event trace of the run, oldest first (R83, R84). -/
  trace     : List Event
  /-- The steps of every compare of the run, oldest first (R264). -/
  cmpLog    : List CmpStep
  /-- The BUS's coming answers (R78). -/
  bus       : BusAnswers
  /-- The HOST's coming moves, the next one first (R4). -/
  host      : List HostMove
  /-- The records the HOST has read out of `RESULT`, oldest first (R46). -/
  delivered : List Result
  /-- The values the HOST has read out of `OP_ACTIVE`, oldest first (R46). -/
  busyTests : List (Option OpName)
  deriving DecidableEq, Repr

/-- R310: what has no meaning in the model and stops it. -/
inductive Fault where
  /-- Raised by `step` on a HOST read of `RESULT` before the first operation has returned (R47, R310).  Safe:
  the spec asks a model to fault here and gives no value. -/
  | resultNotValid
  /-- Raised by `readBuffer`, on a read of an internal buffer that is released: one that no operation has filled,
  or that was released since (R71, R310).  Safe: no operation makes such a read. -/
  | releasedBuffer
  deriving DecidableEq, Repr

/-- What the block does not admit. -/
inductive Refusal where
  /-- An operation without a meaning in the model; no operation of OPS-1 is one.  Safe. -/
  | notModelled (mnemonic : String)
  /-- Raised by `step` on an OPSEL that selects no operation (R102, R309).  Safe: the spec refuses it too. -/
  | reservedOpsel (opsel : Byte)
  /-- Raised by `step` on bytes that are no request of R100 and R103; no HOST presents them.  Safe (DESIGN CHOICE,
  log entry 9). -/
  | malformedRequest (why : DecodeError)
  /-- Raised by `step` while an operation is active: the spec gives the HOST no move then (R39, R352), the model
  none but reset (DESIGN CHOICE, log entries 7 and 20), and no run reaches such a state.  Safe. -/
  | busy
  deriving DecidableEq, Repr

/-- No scripted answers: every answer of the BUS is free. -/
def BusAnswers.none : BusAnswers := ⟨[], [], [], 0⟩

/-- R47, R340: the state after reset.  The spec gives every value of the block's own fields; that the fields from
`trace` on are empty is the model's (DESIGN CHOICE, safe, log entries 2, 5 and 8). -/
def State.reset : State where
  opActive  := .none
  engState  := .idle
  attempt   := 0
  txbuf     := []
  rxbuf     := []
  msgbuf    := []
  digbuf    := []
  held      := Held.none
  result    := .none
  trace     := []
  cmpLog    := []
  bus       := BusAnswers.none
  host      := []
  delivered := []
  busyTests := []

end Sys2Proof.Machine
end

