-- ==== Sys2Proof/Machine/Flags.lean ====
section
/-! DEFINITION. The block has no condition codes (spec R43).  Its status indications are `RESULT.outcome`,
`RESULT.reason` and `RESULT.match`: this file holds their codes, the mapping of a device status to an outcome,
the retry classes, and the fixed-time compare that yields `match`. -/

namespace Sys2Proof.Machine

/-- R33: the 3-bit code of an engine state; no rule depends on the numbers. -/
def EngState.code : EngState → BitVec 3
  | .idle => 0
  | .sent => 1
  | .awaitingResponse => 2
  | .success => 3
  | .retryableFailure => 4
  | .fatalFailure => 5

/-- R41: the 4-bit code of an outcome. -/
def LibOutcome.code : LibOutcome → BitVec 4
  | .success => 0
  | .macMismatch => 1
  | .parseError => 2
  | .execFault => 3
  | .execError => 4
  | .awake => 5
  | .commError => 6
  | .nak => 7
  | .programmingError => 8

/-- R123: each device status maps to the outcome of the same name. -/
def outcomeOf : DeviceStatus → LibOutcome
  | .success => .success
  | .macMismatch => .macMismatch
  | .parseError => .parseError
  | .execFault => .execFault
  | .execError => .execError
  | .awake => .awake
  | .commError => .commError
  | .nak => .nak

/-- The three ways an attempt with a complete write can end (R185 to R187). -/
inductive AttemptClass where
  | success
  | retryable
  | terminal
  deriving DecidableEq, Repr

/-- R185, R186, R187: the class of a validated answer. -/
def classify : DeviceStatus → AttemptClass
  | .success => .success
  | .macMismatch => .terminal
  | .parseError => .terminal
  | .execFault => .terminal
  | .execError => .terminal
  | .awake => .retryable
  | .commError => .retryable
  | .nak => .retryable

/-- R264: the accumulate steps of the compare from index `i` on: `acc OR (d XOR e)` for every byte pair, with
one step in the log for each, whatever the bytes are. -/
def accumulate : Nat → Bytes → Bytes → Byte → Byte × List CmpStep
  | i, d :: ds, e :: es, acc =>
    let rest := accumulate (i + 1) ds es (acc ||| (d ^^^ e))
    (rest.1, .accumulate i :: rest.2)
  | _, _, _, acc => (acc, [])

/-- R264: the whole compare: every byte pair in index order, then one test of the accumulator. -/
def fixedTimeCompare (d e : Bytes) : Bool × List CmpStep :=
  let r := accumulate 0 d e 0x00
  (r.1 == 0x00, r.2 ++ [.test])

end Sys2Proof.Machine
end

