-- ==== Sys2Proof/Machine/Operands.lean ====
section
/-! DEFINITION. The preconditions on operands (spec R42, R302), each in the order its rule gives: the first
one that fails names `RESULT.reason` (R308). -/

namespace Sys2Proof.Machine

/-- R111: the bytes of a command frame beside the payload: length, opcode, two parameters of 1 and 2 bytes,
checksum of 2 (conflict C1). -/
def frameOverhead : Nat := 7

/-- The first precondition of a list that fails. -/
def firstViolated : List (Bool × PErr) → Option PErr
  | [] => none
  | (holds, reason) :: rest => if holds then firstViolated rest else some reason

/-- R151: the size precondition of SERIALIZE and EXECUTE; the bound is inclusive. -/
def sizeError (c : Cfg) (d : CommandDescriptor) : Option PErr :=
  firstViolated [(decide (d.payload.length + frameOverhead ≤ c.maxFrame), .oversize)]

/-- R251: the length preconditions of CR_COMPUTE, in the rule's order. -/
def crComputeError (challenge key otp8 otp3 sn4 sn23 : Bytes) : Option PErr :=
  firstViolated
    [(challenge.length == 32, .badLenChallenge),
     (key.length == 32, .badLenKey),
     (otp8.length == 8, .badLenOtp8),
     (otp3.length == 3, .badLenOtp3),
     (sn4.length == 4, .badLenSn4),
     (sn23.length == 2, .badLenSn23)]

/-- R261, R263: the preconditions of CR_VERIFY, the slot first. -/
def crVerifyError (challenge expected key : Bytes) (slot : Nat) : Option PErr :=
  firstViolated
    [(decide (slot < 16), .badSlot),
     (challenge.length == 32, .badLenChallenge),
     (key.length == 32, .badLenKey),
     (expected.length == 32, .badLenExpected)]

end Sys2Proof.Machine
end

