-- ==== Sys2Proof/Machine/Frame.lean ====
section
/-! DEFINITION. The wire formats: the command frame (spec R111 to R114), its parse (R124), the response frame
(R115) and its validation (R221), and the challenge-response message (R130). -/

namespace Sys2Proof.Machine

/-- R118: the two checksum bytes in the order `CHECKSUM` returns them. -/
def checksumBytes (c : Cfg) (s : Bytes) : Bytes := (c.checksum s).toBytes

/-- R111, R112: the frame before its checksum; the length byte is the TOTAL length, N + 7 (conflict C1). -/
def frameHead (d : CommandDescriptor) : Bytes :=
  BitVec.ofNat 8 (d.payload.length + frameOverhead) :: d.opcode :: d.param1 :: d.param2.toBytes ++ d.payload

/-- R111, R114, R150: the command frame; the checksum covers every byte before it. -/
def commandFrame (c : Cfg) (d : CommandDescriptor) : Bytes :=
  frameHead d ++ checksumBytes c (frameHead d)

/-- What `parseCommandFrame` recovers (R124); `texec` is not in the frame. -/
structure ParsedCommand where
  opcode  : Byte
  param1  : Byte
  param2  : Byte2
  payload : Bytes
  deriving DecidableEq, Repr

/-- R124: the specification function `parseCommandFrame`. -/
def parseCommandFrame (c : Cfg) (f : Bytes) : Option ParsedCommand :=
  match f with
  | len :: opcode :: param1 :: p0 :: p1 :: _ =>
    if f.length < frameOverhead ∨ len.toNat ≠ f.length then none
    else if f.drop (f.length - 2) ≠ checksumBytes c (f.take (f.length - 2)) then none
    else some ⟨opcode, param1, ⟨p0, p1⟩, (f.take (f.length - 2)).drop 5⟩
  | _ => none

/-- R228, R122: what a response body means. -/
def interpretBody (c : Cfg) (body : Bytes) : DeviceStatus × Bytes :=
  match body with
  | [b] =>
    match c.statusMap b with
    | some st => (st, [])
    | none => (.commError, [])
  | _ => (.success, body)

/-- R221: `VALIDATE_FN(raw, cap)`, its checks in the rule's order.  The length byte is the total frame length
(conflict C2) and the checksum covers it and the body (conflict C3). -/
def validateFn (c : Cfg) (raw : Bytes) (cap : Nat) : DeviceStatus × Bytes :=
  match raw with
  | [] => (.commError, [])
  | b :: _ =>
    let len := b.toNat
    if len < 4 then (.commError, [])
    else if len > cap then (.commError, [])
    else if raw.length < len then (.commError, [])
    else
      let fr := raw.take len
      if fr.drop (len - 2) ≠ checksumBytes c (fr.take (len - 2)) then (.commError, [])
      else interpretBody c ((fr.take (len - 2)).drop 1)

/-- R115, R116: the response frame that carries a body. -/
def responseFrame (c : Cfg) (body : Bytes) : Bytes :=
  let head := BitVec.ofNat 8 (body.length + 3) :: body
  head ++ checksumBytes c head

/-- R130: the 88-byte challenge-response message: key first, then challenge, then the metadata. -/
def crMessage (c : Cfg) (challenge key : Bytes) (mode : Byte) (param2 : Byte2) (otp8 otp3 sn4 sn23 : Bytes) :
    Bytes :=
  key ++ challenge ++ [c.crOpcode, mode] ++ param2.toBytes ++ otp8 ++ otp3 ++ [c.sn8Const] ++ sn4
    ++ c.sn01Const.toBytes ++ sn23

end Sys2Proof.Machine
end

