-- ==== Sys2Proof/Machine/Ops.lean ====
section
/-! DEFINITION. The operations the meanings share: starting and ending an operation, ending one by a
programming error, releasing buffers, and the port requests of the BUS, the TIMER and the DIGEST provider. -/

namespace Sys2Proof.Machine

/-! Buffers (R70 to R72). -/

/-- R72: the contents overwritten with 0x00. -/
def zeroWipe (b : Bytes) : Bytes := zeros b.length

/-- R72: a released buffer: zero-wiped, and then of length 0. -/
def release (b : Bytes) : Bytes := (zeroWipe b).take 0

/-- R71: whether a buffer is filled and not released. -/
def Held.has (h : Held) : Buffer → Bool
  | .tx => h.tx
  | .rx => h.rx
  | .msg => h.msg
  | .dig => h.dig

/-- The contents of an internal buffer. -/
def State.contents (s : State) : Buffer → Bytes
  | .tx => s.txbuf
  | .rx => s.rxbuf
  | .msg => s.msgbuf
  | .dig => s.digbuf

/-- A checked read of an internal buffer.  A released buffer is never read as any value, an operation active or not:
that read is a fault (R71, R310).  No operation and no HOST move makes one (R46; DEDUCED, safe, log entry 10). -/
def readBuffer (b : Buffer) (s : State) : Except Fault Bytes :=
  if s.held.has b then .ok (s.contents b) else .error .releasedBuffer

/-- R35: `TXBUF <- f`. -/
def fillTx (f : Bytes) (s : State) : State := { s with txbuf := f, held := { s.held with tx := true } }

/-- R36: `RXBUF <- r`. -/
def fillRx (r : Bytes) (s : State) : State := { s with rxbuf := r, held := { s.held with rx := true } }

/-- R37: `MSGBUF <- m`. -/
def fillMsg (m : Bytes) (s : State) : State := { s with msgbuf := m, held := { s.held with msg := true } }

/-- R38: `DIGBUF <- d`. -/
def fillDig (d : Bytes) (s : State) : State := { s with digbuf := d, held := { s.held with dig := true } }

/-- R191: EXECUTE and SERIALIZE release the command frame. -/
def releaseTx (s : State) : State :=
  { s with txbuf := release s.txbuf, held := { s.held with tx := false } }

/-- R191, R220: the receive buffer is released. -/
def releaseRx (s : State) : State :=
  { s with rxbuf := release s.rxbuf, held := { s.held with rx := false } }

/-- R254, R265: the message and the digest are released. -/
def releaseMsgDig (s : State) : State :=
  { s with
    msgbuf := release s.msgbuf, digbuf := release s.digbuf
    held := { s.held with msg := false, dig := false } }

/-! Starting and ending an operation (R39, R40, R303). -/

/-- R40: the record of `op` with every field at its "not written" value. -/
def Result.blank (op : OpName) : Result where
  op       := op
  outcome  := .success
  reason   := none
  frame    := []
  payload  := []
  digest   := []
  matched  := none
  attempts := 0

/-- R39: the block sets `OP_ACTIVE` to the operation it starts. -/
def start (op : OpName) (s : State) : State := { s with opActive := some op }

/-- R39, R40: the operation writes the whole of `RESULT` and then clears `OP_ACTIVE`. -/
def finish (r : Result) (s : State) : State := { s with result := some r, opActive := none }

/-- R303: `raise ProgrammingError(reason)`.  The spec's one form of an exception: the record is written with
every other field "not written", `OP_ACTIVE` is cleared, and nothing else happens.  Every precondition is
checked before a buffer is filled (R302), so there is none to release (DEDUCED, safe, log entry 15). -/
def raiseProgrammingError (op : OpName) (reason : PErr) (s : State) : State :=
  finish { Result.blank op with outcome := .programmingError, reason := some reason } s

/-! Port requests (R77 to R84): each is one event, answered before the next is issued. -/

/-- R84: an event joins the trace. -/
def recordEvent (e : Event) (s : State) : State := { s with trace := s.trace ++ [e] }

/-- R78: the BUS's next answer to a write of `len` bytes, a count of at most `len`. -/
def BusAnswers.nextWrite (len : Nat) (b : BusAnswers) : Nat × BusAnswers :=
  match b.writes with
  | n :: rest => (min n len, { b with writes := rest })
  | [] => (min (Config.freeWriteCount b.drawn) len, { b with drawn := b.drawn + 1 })

/-- R78, R79: the BUS's next answer to a read, at most `m` bytes. -/
def BusAnswers.nextRead (m : Nat) (b : BusAnswers) : Bytes × BusAnswers :=
  match b.reads with
  | r :: rest => (r.take m, { b with reads := rest })
  | [] => ((Config.freeRead b.drawn).take m, { b with drawn := b.drawn + 1 })

/-- R78: the BUS's next answer to a wake. -/
def BusAnswers.nextWake (b : BusAnswers) : Bool × BusAnswers :=
  match b.wakes with
  | ok :: rest => (ok, { b with wakes := rest })
  | [] => (Config.freeWake b.drawn, { b with drawn := b.drawn + 1 })

/-- R78, R182: `BusWrite(TXBUF)`, and the count answered. -/
def busWrite (s : State) : Nat × State :=
  let a := s.bus.nextWrite s.txbuf.length
  (a.1, recordEvent (.write s.txbuf a.1) { s with bus := a.2 })

/-- R80: `Wait(d)`, one event whose only content is `d`. -/
def timerWait (d : Nat) (s : State) : State := recordEvent (.wait d) s

/-- R78, R184: `RXBUF <- BusRead(m)`. -/
def busRead (m : Nat) (s : State) : State :=
  let a := s.bus.nextRead m
  recordEvent (.read m a.1) (fillRx a.1 { s with bus := a.2 })

/-- R78, R189: `BusWake()`; its answer is recorded and not tested. -/
def busWake (s : State) : State :=
  let a := s.bus.nextWake
  recordEvent (.wake a.1) { s with bus := a.2 }

/-- R82, R253: `DIGBUF <- Hash(MSGBUF)`. -/
def hashMessage (c : Cfg) (s : State) : State :=
  let h := (c.digest s.msgbuf).toList
  recordEvent (.hash s.msgbuf h) (fillDig h s)

end Sys2Proof.Machine
end

