-- ==== Sys2Proof/Machine/ChallengeResponse.lean ====
section
/-! DEFINITION. The Challenge-Response Hash Engine: CR_COMPUTE (spec R250 to R256) and CR_VERIFY (R260 to
R267). -/

namespace Sys2Proof.Machine

/-- R252, R253: the message is assembled in MSGBUF and digested into DIGBUF. -/
def digestMessage (c : Cfg) (message : Bytes) (s : State) : State :=
  hashMessage c (fillMsg message s)

/-- R250: CR_COMPUTE under a configuration. -/
def crCompute (c : Cfg) (challenge key : Bytes) (mode : Byte) (param2 : Byte2) (otp8 otp3 sn4 sn23 : Bytes)
    (s : State) : State :=
  let s := start .crCompute s
  match crComputeError challenge key otp8 otp3 sn4 sn23 with
  | some reason => raiseProgrammingError .crCompute reason s
  | none =>
    let s := digestMessage c (crMessage c challenge key mode param2 otp8 otp3 sn4 sn23) s
    let r := { Result.blank .crCompute with digest := s.digbuf }
    finish r (releaseMsgDig s)

/-- R262: the message of CR_VERIFY: mode 0x00, the encoded slot, and zeros in the OTP and serial fields. -/
def crVerifyMessage (c : Cfg) (challenge key : Bytes) (slot : Nat) : Bytes :=
  crMessage c challenge key 0x00 (c.slotEnc slot) (zeros 8) (zeros 3) (zeros 4) (zeros 2)

/-- R264: the compare of DIGBUF with the expected response; its steps join the log. -/
def compareDigest (expected : Bytes) (s : State) : Bool × State :=
  let r := fixedTimeCompare s.digbuf expected
  (r.1, { s with cmpLog := s.cmpLog ++ r.2 })

/-- R260: CR_VERIFY under a configuration.  The digest goes into no field of `RESULT` (R265). -/
def crVerify (c : Cfg) (challenge expected key : Bytes) (slot : Nat) (s : State) : State :=
  let s := start .crVerify s
  match crVerifyError challenge expected key slot with
  | some reason => raiseProgrammingError .crVerify reason s
  | none =>
    let m := compareDigest expected (digestMessage c (crVerifyMessage c challenge key slot) s)
    finish { Result.blank .crVerify with matched := some m.1 } (releaseMsgDig m.2)

/-- R250: the meaning of CR_COMPUTE. -/
def execCrCompute (challenge key : Bytes) (mode : Byte) (param2 : Byte2) (otp8 otp3 sn4 sn23 : Bytes)
    (s : State) : Host.Outcome State Fault Refusal :=
  .next (crCompute Config.cfg challenge key mode param2 otp8 otp3 sn4 sn23 s)

/-- R260: the meaning of CR_VERIFY. -/
def execCrVerify (challenge expected key : Bytes) (slot : Nat) (s : State) : Host.Outcome State Fault Refusal :=
  .next (crVerify Config.cfg challenge expected key slot s)

end Sys2Proof.Machine
end

