-- ==== Sys2Proof/Machine/Serializer.lean ====
section
/-! DEFINITION. The Command Serializer: SERIALIZE (spec R150 to R155). -/

namespace Sys2Proof.Machine

/-- R150: SERIALIZE under a configuration. -/
def serialize (c : Cfg) (desc : CommandDescriptor) (s : State) : State :=
  let s := start .serialize s
  match sizeError c desc with
  | some reason => raiseProgrammingError .serialize reason s
  | none =>
    let s := fillTx (commandFrame c desc) s
    let r := { Result.blank .serialize with frame := s.txbuf }
    finish r (releaseTx s)

/-- R150: the meaning of SERIALIZE. -/
def execSerialize (desc : CommandDescriptor) (s : State) : Host.Outcome State Fault Refusal :=
  .next (serialize Config.cfg desc s)

end Sys2Proof.Machine
end

