-- ==== Sys2Proof/Machine/Transport.lean ====
section
/-! DEFINITION. The Transport/Retry Engine: EXECUTE (spec R180 to R192). -/

namespace Sys2Proof.Machine

/-- How one attempt ends. -/
inductive AttemptEnd where
  /-- A success or a terminal device status, with the payload (R185, R187). -/
  | done (outcome : LibOutcome) (payload : Bytes)
  /-- A retryable class (R183, R186). -/
  | retry
  deriving DecidableEq, Repr

/-- R185 to R187: state AWAITING_RESPONSE: validate the answer, classify it and set `ENG_STATE`. -/
def judgeAnswer (c : Cfg) (s : State) : AttemptEnd × State :=
  let v := validateFn c s.rxbuf c.rspCap
  match classify v.1 with
  | .success => (.done (outcomeOf v.1) v.2, { s with engState := .success })
  | .terminal => (.done (outcomeOf v.1) [], { s with engState := .fatalFailure })
  | .retryable => (.retry, { s with engState := .retryableFailure })

/-- R184: state SENT: wait, then read; then `ENG_STATE` is AWAITING_RESPONSE. -/
def waitAndRead (c : Cfg) (texec : Nat) (s : State) : State :=
  let s := busRead c.rspCap (timerWait texec s)
  { s with engState := .awaitingResponse }

/-- R182 to R187: one attempt, from state IDLE.  A short write ends it at once, with no wait and no read. -/
def runAttempt (c : Cfg) (texec : Nat) (s : State) : AttemptEnd × State :=
  let w := busWrite { s with attempt := s.attempt + 1 }
  if w.1 ≠ w.2.txbuf.length then (.retry, { w.2 with engState := .retryableFailure })
  else judgeAnswer c (waitAndRead c texec { w.2 with engState := .sent })

/-- R191: every return of EXECUTE writes `attempts` and releases both frame buffers. -/
def executeReturn (outcome : LibOutcome) (payload : Bytes) (s : State) : State :=
  finish { Result.blank .execute with outcome := outcome, payload := payload, attempts := s.attempt }
    (releaseRx (releaseTx s))

/-- R188: the retries are used up: COMM_ERROR, whichever retryable class came last. -/
def executeExhausted (s : State) : State :=
  executeReturn .commError [] { s with engState := .fatalFailure }

/-- R189: one wake between two attempts; its answer is not tested. -/
def rewake (s : State) : State :=
  { busWake s with engState := .idle }

/-- R180: the loop of attempts.  `fuel` only makes the recursion structural: EXECUTE gives it `MAX_ATTEMPTS`,
and R188's test ends the loop before it runs out (DESIGN CHOICE, safe, log entry 16). -/
def attemptLoop (c : Cfg) (texec : Nat) : Nat → State → State
  | 0, s => executeExhausted s
  | fuel + 1, s =>
    match runAttempt c texec s with
    | (.done outcome payload, s') => executeReturn outcome payload s'
    | (.retry, s') =>
      if s'.attempt ≥ c.maxAttempts then executeExhausted s'
      else attemptLoop c texec fuel (rewake s')

/-- R180, R181: EXECUTE under a configuration.  The frame is serialized once and kept for every attempt. -/
def execute (c : Cfg) (desc : CommandDescriptor) (s : State) : State :=
  let s := { start .execute s with engState := .idle, attempt := 0 }
  match sizeError c desc with
  | some reason => raiseProgrammingError .execute reason s
  | none => attemptLoop c desc.texec c.maxAttempts (fillTx (commandFrame c desc) s)

/-- R180: the meaning of EXECUTE. -/
def execExecute (desc : CommandDescriptor) (s : State) : Host.Outcome State Fault Refusal :=
  .next (execute Config.cfg desc s)

end Sys2Proof.Machine
end

