-- ==== Sys2Proof/Machine/Validator.lean ====
section
/-! DEFINITION. The Response Validator as an operation: VALIDATE (spec R220 to R231). -/

namespace Sys2Proof.Machine

/-- R220: VALIDATE under a configuration.  It has no precondition and issues no port request. -/
def validate (c : Cfg) (raw : Bytes) (cap : Nat) (s : State) : State :=
  let s := start .validate s
  let s := fillRx raw s
  let v := validateFn c s.rxbuf cap
  finish { Result.blank .validate with outcome := outcomeOf v.1, payload := v.2 } (releaseRx s)

/-- R220: the meaning of VALIDATE. -/
def execValidate (raw : Bytes) (cap : Nat) (s : State) : Host.Outcome State Fault Refusal :=
  .next (validate Config.cfg raw cap s)

end Sys2Proof.Machine
end

