-- ==== Sys2Proof/Machine/Dispatch.lean ====
section
/-! DEFINITION. The meaning of each operation of OPS-1 (spec R8), one arm per row of the opcode table. -/

namespace Sys2Proof.Machine

def exec (i : Instr) (s : State) : Host.Outcome State Fault Refusal :=
  match i with
  | .serialize desc => Sys2Proof.Machine.execSerialize desc s
  | .execute desc => Sys2Proof.Machine.execExecute desc s
  | .validate raw cap => Sys2Proof.Machine.execValidate raw cap s
  | .crCompute challenge key mode param2 otp8 otp3 sn4 sn23 => Sys2Proof.Machine.execCrCompute challenge key mode param2 otp8 otp3 sn4 sn23 s
  | .crVerify challenge expected key slot => Sys2Proof.Machine.execCrVerify challenge expected key slot s

end Sys2Proof.Machine
end

