-- ==== Sys2Proof/Machine/HostPort.lean ====
section
/-! DEFINITION. What the HOST does to the block (spec R46, R319): it presents requests, reads `RESULT` and
`OP_ACTIVE`, and uses the bus between operations; and reset, which the model makes one of its moves (DESIGN CHOICE,
log entry 20). -/

namespace Sys2Proof.Machine

/-- R46, R47, R310: the HOST reads `RESULT`; before the first operation has returned that is a fault. -/
def hostReadResult (s : State) : Host.Outcome State Fault Refusal :=
  match s.result with
  | none => .fault .resultNotValid
  | some r => .next { s with delivered := s.delivered ++ [r] }

/-- R32, R46: the HOST reads `OP_ACTIVE`, the busy test. -/
def hostReadOpActive (s : State) : State := { s with busyTests := s.busyTests ++ [s.opActive] }

/-- R340, R341: reset, by the model's choice a move of the HOST (DESIGN CHOICE, log entry 20).  Every piece of the block's state takes its reset value, the buffers zero-wiped; port
events already issued stay, and so does what belongs to the HOST and the BUS. -/
def hostReset (s : State) : State :=
  { State.reset with
    txbuf     := release s.txbuf
    rxbuf     := release s.rxbuf
    msgbuf    := release s.msgbuf
    digbuf    := release s.digbuf
    trace     := s.trace
    cmpLog    := s.cmpLog
    bus       := s.bus
    host      := s.host
    delivered := s.delivered
    busyTests := s.busyTests }

/-- R81, R318: the HOST's own use of the bus between operations leaves the block's state as it is (DESIGN CHOICE,
safe, log entry 12). -/
def hostUseBus (_use : HostBusUse) (s : State) : State := s

/-- The BUS answers left after one event was issued. -/
def BusAnswers.afterEvent (b : BusAnswers) : Event → BusAnswers
  | .wake _ => b.nextWake.2
  | .write s _ => (b.nextWrite s.length).2
  | .read m _ => (b.nextRead m).2
  | .wait _ => b
  | .hash _ _ => b

/-- R341: a reset that arrives during an operation, once it has issued `k` port requests (or at its end, if it
issues fewer).  `s` is the state the operation started from and `t` the one it would return with: the first
`k` events of the operation stay issued, their BUS answers are used up, and there is no RESULT.  The compare of
CR_VERIFY comes after its last port request, so a reset before the operation's end leaves no compare steps (DESIGN
CHOICE, unsafe for claims about those steps, log entry 6). -/
def resetDuring (s t : State) (k : Nat) : State :=
  let events := (t.trace.drop s.trace.length).take k
  hostReset { s with
    trace := s.trace ++ events
    bus   := events.foldl BusAnswers.afterEvent s.bus }

/-- What the step finds to do. -/
inductive Fetched where
  /-- The HOST has no move left. -/
  | idle
  /-- The HOST's move cannot be admitted. -/
  | refused (r : Refusal)
  /-- An operation to run, from the state with the move taken off. -/
  | request (i : Instr) (s : State)
  /-- An operation to run and cut off by a reset after `k` port requests. -/
  | requestThenReset (i : Instr) (k : Nat) (s : State)
  /-- A HOST move that is no request. -/
  | move (o : Host.Outcome State Fault Refusal)

/-- R102, R103: why the bytes of a move are no request. -/
def refusalOf : DecodeError → Refusal
  | .reservedOpsel b => .reservedOpsel b
  | e => .malformedRequest e

/-- R39, R46, R352: what the HOST may do only while no operation is active.  In a state with one active the spec
gives the HOST no move, and the model refuses it (DESIGN CHOICE, safe, log entry 7). -/
def whenIdle (s : State) (f : Fetched) : Fetched :=
  match s.opActive with
  | none => f
  | some _ => .refused .busy

/-- The HOST's next move.  Reset alone is taken in any state (R340, R341); that it is one of the HOST's moves is
the model's choice (DESIGN CHOICE, log entry 20). -/
def fetch (s : State) : Fetched :=
  match s.host with
  | [] => whenIdle s .idle
  | .request bytes :: rest =>
    whenIdle s <|
      match decodeRequest bytes with
      | .ok i => .request i { s with host := rest }
      | .error e => .refused (refusalOf e)
  | .requestThenReset bytes k :: rest =>
    whenIdle s <|
      match decodeRequest bytes with
      | .ok i => .requestThenReset i k { s with host := rest }
      | .error e => .refused (refusalOf e)
  | .reset :: rest => .move (.next (hostReset { s with host := rest }))
  | .readResult :: rest => whenIdle s (.move (hostReadResult { s with host := rest }))
  | .readOpActive :: rest => whenIdle s (.move (.next (hostReadOpActive { s with host := rest })))
  | .useBus use :: rest => whenIdle s (.move (.next (hostUseBus use { s with host := rest })))

/-- One step over any meaning of the operations: fetch, then run.  With no move of the HOST the block executes
nothing (R342). -/
def stepOver (run : Instr → State → Host.Outcome State Fault Refusal) (s : State) :
    Host.Outcome State Fault Refusal :=
  match fetch s with
  | .idle => .next s
  | .refused r => .refused r
  | .move o => o
  | .request i s' => run i s'
  | .requestThenReset i k s' =>
    match run i s' with
    | .next t => .next (resetDuring s' t k)
    | .fault f => .fault f
    | .refused r => .refused r

/-- The HOST presents one request, given as its bytes, as its very next move. -/
def presentNext (bytes : Bytes) (s : State) : State :=
  { s with opActive := none, host := .request bytes :: s.host }

end Sys2Proof.Machine
end

