-- ==== Sys2Proof/Machine/Step.lean ====
section
/-! DEFINITION. The machine's step (spec R3): the HOST's next move, run to its end. -/

namespace Sys2Proof.Machine

/-- One step of the machine (DEDUCED, safe, log entry 4). -/
def step (s : State) : Host.Outcome State Fault Refusal := stepOver exec s

/-- The state in which the HOST's very next move is the request a word of the opcode table begins, every
operand bit above `nbits` zero (DESIGN CHOICE, safe, log entry 5). -/
def State.withFetchWord (s : State) (nbits w : Nat) : State := presentNext (tableWordRequest nbits w) s

end Sys2Proof.Machine
end

