-- ==== Sys2Proof/Safety.lean ====
section
/-! DEFINITION. What the claims about the block are stated in: the state between operations, the invariant every
step keeps, the shape of EXECUTE's bus traffic, and what counts as a run without a fault of the HOST. -/

namespace Sys2Proof.Machine

/-- R35 to R39, R71: between operations none is active and every internal buffer is released and empty. -/
def State.Quiet (s : State) : Prop :=
  s.opActive = none ∧ s.txbuf = [] ∧ s.rxbuf = [] ∧ s.msgbuf = [] ∧ s.digbuf = [] ∧ s.held = Held.none

/-- R306: which outcomes an operation can return. -/
def permitted : OpName → LibOutcome → Bool
  | .serialize, .success => true
  | .serialize, .programmingError => true
  | .execute, .awake => false
  | .execute, .nak => false
  | .execute, _ => true
  | .validate, .programmingError => false
  | .validate, _ => true
  | .crCompute, .success => true
  | .crCompute, .programmingError => true
  | .crVerify, .success => true
  | .crVerify, .programmingError => true
  | _, _ => false

/-- R42: which reasons an operation can give. -/
def mayRaise : OpName → PErr → Bool
  | .serialize, .oversize => true
  | .execute, .oversize => true
  | .crCompute, .badLenChallenge => true
  | .crCompute, .badLenKey => true
  | .crCompute, .badLenOtp8 => true
  | .crCompute, .badLenOtp3 => true
  | .crCompute, .badLenSn4 => true
  | .crCompute, .badLenSn23 => true
  | .crVerify, .badSlot => true
  | .crVerify, .badLenChallenge => true
  | .crVerify, .badLenKey => true
  | .crVerify, .badLenExpected => true
  | _, _ => false

/-- R40 to R42, R306: a record an operation can have written under a configuration. -/
structure Result.Legal (c : Cfg) (r : Result) : Prop where
  outcome_permitted : permitted r.op r.outcome = true
  reason_iff        : r.reason.isSome = true ↔ r.outcome = .programmingError
  reason_raised     : ∀ p, r.reason = some p → mayRaise r.op p = true
  frame_only        : r.frame ≠ [] ↔ r.op = .serialize ∧ r.outcome = .success
  frame_length      : r.frame.length ≤ c.maxFrame
  payload_only      : r.payload ≠ [] → (r.op = .execute ∨ r.op = .validate) ∧ r.outcome = .success
  digest_length     : r.digest.length = if r.op = .crCompute ∧ r.outcome = .success then 32 else 0
  match_only        : r.matched.isSome = true ↔ r.op = .crVerify ∧ r.outcome = .success
  attempts_le       : r.attempts ≤ c.maxAttempts
  attempts_only     : r.attempts ≠ 0 ↔ r.op = .execute ∧ r.outcome ≠ .programmingError

/-- R78, R79, R82, R184: an event whose answer is within its port's contract. -/
def Event.Legal (c : Cfg) : Event → Prop
  | .wake _ => True
  | .write s n => 7 ≤ s.length ∧ s.length ≤ c.maxFrame ∧ n ≤ s.length
  | .wait _ => True
  | .read m r => m = c.rspCap ∧ r.length ≤ m
  | .hash s h => s.length = 88 ∧ h = (c.digest s).toList

/-- The invariant of the machine, in the states between steps: no operation is active and no buffer holds a
byte, `ENG_STATE` is IDLE or terminal (R33), `ATTEMPT` is within its bound (R34), and every record and event is
one the block can have produced. -/
structure State.Inv (c : Cfg) (s : State) : Prop where
  quiet           : s.Quiet
  engine_rests    : s.engState = .idle ∨ s.engState = .success ∨ s.engState = .fatalFailure
  attempt_le      : s.attempt ≤ c.maxAttempts
  result_legal    : ∀ r, s.result = some r → r.Legal c
  delivered_legal : ∀ r ∈ s.delivered, r.Legal c
  trace_legal     : ∀ e ∈ s.trace, e.Legal c
  never_seen_busy : ∀ b ∈ s.busyTests, b = none

/-! The bus traffic of EXECUTE, stated without the engine. -/

/-- R183, R184, R190: the events of one attempt, and the status and payload its answer stands for: a short
write is the class COMM_ERROR, with no wait and no read. -/
inductive Attempt (c : Cfg) (frame : Bytes) (texec : Nat) : List Event → DeviceStatus → Bytes → Prop
  | shortWrite (n : Nat) (h : n < frame.length) :
    Attempt c frame texec [.write frame n] .commError []
  | complete (r : Bytes) (h : r.length ≤ c.rspCap) :
    Attempt c frame texec [.write frame frame.length, .wait texec, .read c.rspCap r]
      (validateFn c r c.rspCap).1 (validateFn c r c.rspCap).2

/-- R185 to R190: `Attempts c frame texec left k events outcome payload` holds when `k` attempts, of at most
`left`, with these events, end in this outcome and payload. -/
inductive Attempts (c : Cfg) (frame : Bytes) (texec : Nat) :
    Nat → Nat → List Event → LibOutcome → Bytes → Prop
  | success (left : Nat) (ev : List Event) (payload : Bytes) (h : Attempt c frame texec ev .success payload) :
    Attempts c frame texec (left + 1) 1 ev .success payload
  | terminal (left : Nat) (ev : List Event) (st : DeviceStatus) (payload : Bytes)
      (h : Attempt c frame texec ev st payload)
      (ht : st = .macMismatch ∨ st = .parseError ∨ st = .execFault ∨ st = .execError) :
    Attempts c frame texec (left + 1) 1 ev (outcomeOf st) []
  | exhausted (ev : List Event) (st : DeviceStatus) (payload : Bytes) (h : Attempt c frame texec ev st payload)
      (hr : st = .nak ∨ st = .commError ∨ st = .awake) :
    Attempts c frame texec 1 1 ev .commError []
  | again (left k : Nat) (ev rest : List Event) (st : DeviceStatus) (payload payload' : Bytes) (ok : Bool)
      (outcome : LibOutcome) (h : Attempt c frame texec ev st payload)
      (hr : st = .nak ∨ st = .commError ∨ st = .awake)
      (hrest : Attempts c frame texec (left + 1) k rest outcome payload') :
    Attempts c frame texec (left + 2) (k + 1) (ev ++ .wake ok :: rest) outcome payload'

/-- How the BUS answers one attempt, for claims over the BUS's scripts: a write of fewer bytes than the frame has, or
a write of at least that many and then the answer to the read. -/
inductive BusAttempt where
  | short (count : Nat)
  | whole (count : Nat) (answer : Bytes)
  deriving DecidableEq, Repr

/-- What the attempt takes from the script of write counts. -/
def BusAttempt.count : BusAttempt → Nat
  | .short n => n
  | .whole n _ => n

/-- What the attempt takes from the script of read answers: a short write is followed by no read (R183). -/
def BusAttempt.answers : BusAttempt → List Bytes
  | .short _ => []
  | .whole _ r => [r]

/-- R190: the events of the attempt. -/
def BusAttempt.events (c : Cfg) (frame : Bytes) (texec : Nat) : BusAttempt → List Event
  | .short n => [.write frame n]
  | .whole _ r => [.write frame frame.length, .wait texec, .read c.rspCap r]

/-- R183, R186: the attempt, of a frame of `len` bytes, ends in a retryable class: its write is short, or its answer
validates as NAK, COMM_ERROR or AWAKE. -/
def BusAttempt.Retried (c : Cfg) (len : Nat) : BusAttempt → Prop
  | .short n => n < len
  | .whole n r => len ≤ n ∧ r.length ≤ c.rspCap ∧
    ((validateFn c r c.rspCap).1 = .nak ∨ (validateFn c r c.rspCap).1 = .commError ∨
      (validateFn c r c.rspCap).1 = .awake)

/-- The events of each kind, for claims that count them (R84). -/
def Event.isWrite : Event → Bool
  | .write _ _ => true
  | _ => false

def Event.isCompleteWrite : Event → Bool
  | .write s n => n == s.length
  | _ => false

def Event.isWake : Event → Bool
  | .wake _ => true
  | _ => false

def Event.isWait : Event → Bool
  | .wait _ => true
  | _ => false

def Event.isRead : Event → Bool
  | .read _ _ => true
  | _ => false

/-! Safe runs. -/

/-- R303: a record that does not count as a fault of the HOST's program.  That the model takes R303's option at all is
its choice (DESIGN CHOICE, log entry 19). -/
def Result.noProgrammingError (r : Result) : Prop := r.outcome ≠ .programmingError

/-- A run of `k` steps that no fault and no refusal ends (R309, R310), after which no record the HOST has read is a
programming error.  R303 lets a model count such an outcome as a fault of the HOST's program and does not say which
records count; that those the HOST has read count, from before the run too, and one it never reads does not, is the
model's choice (DESIGN CHOICE, log entry 19). -/
def safeRun (k : Nat) (s : State) : Prop :=
  ∃ t, Sys2Proof.core.run k s = .next t ∧ ∀ r ∈ t.delivered, r.noProgrammingError

/-- R230: the bytes of an input that VALIDATE examines: the first `raw[0]` of them. -/
def examined : Bytes → Bytes
  | [] => []
  | b :: r => (b :: r).take b.toNat

end Sys2Proof.Machine
end

