-- ==== Sys2Proof/Certificates/Slice0/Obligations.lean ====
section
/-! DEFINITION. The statements for the provers.  Each docstring names the rules of the spec it formalises.  A
state `s` is any state unless a hypothesis says otherwise; `Config.cfg` is the configuration of spec R10, any
one that meets R10's constraints. -/

open Sys2Proof Sys2Proof.Machine

/-! Reset and the HOST. -/

/-- R340 (R47): what reset leaves in the state of the block, and that a HOST read of `RESULT` then is a
fault. -/
def Obligations.ResetLeavesStatedValues : Prop :=
  State.reset.opActive = none ∧ State.reset.engState = .idle ∧ State.reset.attempt = 0 ∧
    State.reset.txbuf = [] ∧ State.reset.rxbuf = [] ∧ State.reset.msgbuf = [] ∧ State.reset.digbuf = [] ∧
    State.reset.held = Held.none ∧
    State.reset.result = none ∧
    step { State.reset with host := [.readResult] } = .fault .resultNotValid

/-- R340, R341: a reset in any state, an operation active or not, gives every field of the block its reset
value, RESULT among them, and leaves the events already issued. That a reset is a move of the HOST is the
model's choice (DESIGN CHOICE, log entry 20), and that the model's own fields stay too is log entry 8. -/
def Obligations.ResetInAnyState : Prop :=
  ∀ (s : State) (rest : List HostMove), s.host = .reset :: rest → step s = .next { s with
    host := rest
    opActive := none, engState := .idle, attempt := 0, txbuf := [], rxbuf := [], msgbuf := [], digbuf := []
    held := Held.none, result := none }

/-- R341: a reset that arrives during an operation, once it has issued `k` port requests, ends it without a
RESULT; the events it had issued stay in the trace and none of the later ones is in it. That it takes the moment
as a number of issued port requests, that the BUS's coming answers are then those left by the issued events, and
that no compare step is logged, is the model's (DESIGN CHOICE, log entry 6); that the HOST's coming moves and
what it has read stay is the model's too (DESIGN CHOICE, log entry 8), and so is that a reset is a move of the
HOST (DESIGN CHOICE, log entry 20). -/
def Obligations.ResetDuringOperationKeepsIssuedEvents : Prop :=
  ∀ (s u : State) (bytes : Bytes) (k : Nat) (rest : List HostMove) (i : Instr),
    s.opActive = none → s.host = .requestThenReset bytes k :: rest → decodeRequest bytes = .ok i →
    exec i { s with host := rest } = .next u →
    ∃ events, u.trace = s.trace ++ events ∧ u.bus = events.foldl BusAnswers.afterEvent s.bus ∧
      step s = .next { s with
        host := rest
        opActive := none, engState := .idle, attempt := 0, txbuf := [], rxbuf := [], msgbuf := [], digbuf := []
        held := Held.none, result := none
        trace := s.trace ++ events.take k
        bus := (events.take k).foldl BusAnswers.afterEvent s.bus }

/-- R342 (the spec's own inference): the block executes nothing until the HOST presents a request. -/
def Obligations.NoMoveNothingHappens : Prop :=
  ∀ s : State, s.opActive = none → s.host = [] → step s = .next s

/-- R47, R310, R46: a HOST read of `RESULT` faults before the first operation has returned, and after that gives
the HOST the record and changes nothing of the block. -/
def Obligations.HostReadOfResult : Prop :=
  ∀ (s : State) (rest : List HostMove), s.opActive = none → s.host = .readResult :: rest →
    (s.result = none → step s = .fault .resultNotValid) ∧
    (∀ r, s.result = some r → step s = .next { s with host := rest, delivered := s.delivered ++ [r] })

/-- R39, R46, R32: a HOST read of `OP_ACTIVE`, whenever the HOST has that move, finds NONE and changes nothing
of the block. -/
def Obligations.HostReadOfOpActive : Prop :=
  ∀ (s : State) (rest : List HostMove), s.opActive = none → s.host = .readOpActive :: rest →
    step s = .next { s with host := rest, busyTests := s.busyTests ++ [none] }

/-- R102, R101: the OPSEL values that select no operation are exactly 0x00 and 0x06..0xFF, and a request with
one is refused, whatever follows it, in any state that admits a request: no state, so no RESULT and no event,
results. -/
def Obligations.ReservedOpselRefused : Prop :=
  (∀ b : Byte, selectOp b = none ↔ b = 0x00 ∨ 0x06 ≤ b.toNat) ∧
  ∀ (s : State) (b : Byte) (operands : Bytes) (rest : List HostMove), b = 0x00 ∨ 0x06 ≤ b.toNat →
    s.opActive = none → s.host = .request (b :: operands) :: rest → step s = .refused (.reservedOpsel b)

/-- R39, R352: no move of the HOST is admitted while an operation is active, but a reset, which is a move of the
HOST by the model's choice (DESIGN CHOICE, log entry 20). That such a state is refused under this name is the
model's choice (log entry 7). -/
def Obligations.NothingAdmittedWhileActive : Prop :=
  ∀ (s : State) (op : OpName), s.opActive = some op → (∀ rest, s.host ≠ .reset :: rest) →
    step s = .refused .busy

/-- R4, R39, R100: a step runs the request the HOST presents, from the state with that move taken off. -/
def Obligations.StepRunsDecodedRequest : Prop :=
  ∀ (s : State) (bytes : Bytes) (rest : List HostMove) (i : Instr),
    s.opActive = none → s.host = .request bytes :: rest → decodeRequest bytes = .ok i →
    step s = exec i { s with host := rest }

/-- R81, R318: the HOST's own use of the bus leaves the block's own state as it is. That open, wake and idle
also leave the event trace and the BUS's coming answers as they are is the model's choice (DESIGN CHOICE, log
entry 12). -/
def Obligations.HostBusUseLeavesBlock : Prop :=
  ∀ (s : State) (use : HostBusUse) (rest : List HostMove), s.opActive = none → s.host = .useBus use :: rest →
    step s = .next { s with host := rest }

/-! Requests. -/

/-- R100, R101, R103, in the transport form of log entry 3: the encoding of every well-formed request decodes to
it and leaves what follows. -/
def Obligations.DecodeOfEncode : Prop :=
  ∀ (i : Instr) (rest : Bytes), i.wellFormed = true → decode (encode i ++ rest) = .ok (i, rest)

/-- R100, R101, R103, in the transport form of log entry 3: whatever decodes is a well-formed request, and its
encoding is the bytes it was decoded from. -/
def Obligations.EncodeOfDecode : Prop :=
  ∀ (bytes rest : Bytes) (i : Instr), decode bytes = .ok (i, rest) →
    i.wellFormed = true ∧ bytes = encode i ++ rest

/-- R101: the five rows of the opcode table, and one request written out byte by byte (log entry 3). -/
def Obligations.TableWordsDecode : Prop :=
  decodeTableWord 8 0x01 = some (.serialize ⟨0, 0, ⟨0, 0⟩, [], 0⟩) ∧
  decodeTableWord 8 0x02 = some (.execute ⟨0, 0, ⟨0, 0⟩, [], 0⟩) ∧
  decodeTableWord 8 0x03 = some (.validate [] 0) ∧
  decodeTableWord 8 0x04 = some (.crCompute [] [] 0 ⟨0, 0⟩ [] [] [] []) ∧
  decodeTableWord 8 0x05 = some (.crVerify [] [] [] 0) ∧
  decodeRequest [0x02, 0x1B, 0x07, 0x03, 0x00, 0x02, 0xAA, 0xBB, 0xFF, 0x05] =
    .ok (.execute ⟨0x1B, 0x07, ⟨0x03, 0x00⟩, [0xAA, 0xBB], 260⟩)

/-! SERIALIZE. -/

/-- R150, R111, R112, R114, R152: SERIALIZE of a payload that fits completes with the frame: the length N + 7,
the opcode, the parameters, the payload, and the checksum of all of these; TXBUF is released and nothing else of
the state changes. -/
def Obligations.SerializeBuildsFrame : Prop :=
  ∀ (d : CommandDescriptor) (s : State), d.payload.length + 7 ≤ Config.cfg.maxFrame →
    let hdr : Bytes :=
      [BitVec.ofNat 8 (d.payload.length + 7), d.opcode, d.param1, d.param2.b0, d.param2.b1] ++ d.payload
    exec (.serialize d) s = .next { s with
      opActive := none
      txbuf := []
      held := { s.held with tx := false }
      result := some {
        op := .serialize, outcome := .success, reason := none
        frame := hdr ++ [(Config.cfg.checksum hdr).b0, (Config.cfg.checksum hdr).b1]
        payload := [], digest := [], matched := none, attempts := 0 } }

/-- R151: a payload that does not fit is PROGRAMMING_ERROR with reason OVERSIZE and no frame, and nothing else
is written. -/
def Obligations.SerializeOversize : Prop :=
  ∀ (d : CommandDescriptor) (s : State), Config.cfg.maxFrame < d.payload.length + 7 →
    exec (.serialize d) s = .next { s with
      opActive := none
      result := some {
        op := .serialize, outcome := .programmingError, reason := some .oversize, frame := []
        payload := [], digest := [], matched := none, attempts := 0 } }

/-- R113 (the spec's own inference): every frame SERIALIZE produces has a first byte that is, as a number,
exactly its length, N + 7, which is from 7 to 255. -/
def Obligations.FrameLengthByteIsExact : Prop :=
  ∀ (d : CommandDescriptor) (s : State), d.payload.length + 7 ≤ Config.cfg.maxFrame →
    ∃ t r len tail, exec (.serialize d) s = .next t ∧ t.result = some r ∧ r.frame = len :: tail ∧
      len.toNat = r.frame.length ∧ r.frame.length = d.payload.length + 7 ∧ 7 ≤ r.frame.length ∧
      r.frame.length ≤ 255

/-- R154 (the spec's own inference, and a property of its source): parsing the frame SERIALIZE built gives back
the opcode, the parameters and the payload. -/
def Obligations.SerializeRoundTrip : Prop :=
  ∀ (d : CommandDescriptor) (s : State), d.payload.length + 7 ≤ Config.cfg.maxFrame →
    ∃ t r, exec (.serialize d) s = .next t ∧ t.result = some r ∧
      parseCommandFrame Config.cfg r.frame = some ⟨d.opcode, d.param1, d.param2, d.payload⟩

/-- R155 (the spec's own inference): a SERIALIZE frame altered in exactly one byte: at an offset from 1 to |f| -
3, VALIDATE with cap 255 answers COMM_ERROR; in the length byte, VALIDATE does so when the altered length is
above |f| or the cap, or below 4. -/
def Obligations.AlteredFrameIsCommError : Prop :=
  ∀ (d : CommandDescriptor) (s₀ t₀ s : State) (r₀ : Result) (b : Byte),
    exec (.serialize d) s₀ = .next t₀ → t₀.result = some r₀ → r₀.outcome = .success →
    (∀ k, 1 ≤ k → k + 3 ≤ r₀.frame.length → r₀.frame[k]? ≠ some b →
      exec (.validate (r₀.frame.set k b) 255) s = .next { s with
        opActive := none, rxbuf := [], held := { s.held with rx := false }
        result := some { Result.blank .validate with outcome := .commError } }) ∧
    (∀ cap, r₀.frame.length < b.toNat ∨ cap < b.toNat ∨ b.toNat < 4 →
      exec (.validate (r₀.frame.set 0 b) cap) s = .next { s with
        opActive := none, rxbuf := [], held := { s.held with rx := false }
        result := some { Result.blank .validate with outcome := .commError } })

/-- R153 (the spec's own inference): the record SERIALIZE writes depends on the opcode, the parameters and the
payload alone, not on `texec` and not on the state. -/
def Obligations.SerializeDependsOnFrameFieldsAlone : Prop :=
  ∀ (d d' : CommandDescriptor) (s s' : State), d.opcode = d'.opcode → d.param1 = d'.param1 →
    d.param2 = d'.param2 → d.payload = d'.payload →
    ∃ t t', exec (.serialize d) s = .next t ∧ exec (.serialize d') s' = .next t' ∧ t.result = t'.result

/-! VALIDATE. -/

/-- R222, R223, R224, R226, R231: an empty input, a length below 4 or above the capacity, a truncated frame and
a wrong checksum are each COMM_ERROR with an empty payload; RXBUF is released and nothing else changes. -/
def Obligations.ValidateRejects : Prop :=
  ∀ (raw : Bytes) (cap : Nat) (s : State),
    (raw = [] ∨
      ∃ b r, raw = b :: r ∧
        (b.toNat < 4 ∨ cap < b.toNat ∨ raw.length < b.toNat ∨
          (raw.take b.toNat).drop (b.toNat - 2) ≠ (Config.cfg.checksum (raw.take (b.toNat - 2))).toBytes)) →
    exec (.validate raw cap) s = .next { s with
      opActive := none, rxbuf := [], held := { s.held with rx := false }
      result := some {
        op := .validate, outcome := .commError, reason := none, frame := [], payload := []
        digest := [], matched := none, attempts := 0 } }

/-- R115, R116, R225 to R228, R120, R122, R123: a frame within the capacity, whatever bytes follow it: a body of
one byte is the outcome of the same name as the status `STATUS_MAP` gives it, or COMM_ERROR where it gives none,
with an empty payload; a body of two bytes or more is SUCCESS with the body as payload. -/
def Obligations.ValidateReadsFrame : Prop :=
  ∀ (body junk : Bytes) (cap : Nat) (s : State), 1 ≤ body.length → body.length + 3 ≤ cap →
    body.length + 3 ≤ 255 →
    let head : Bytes := BitVec.ofNat 8 (body.length + 3) :: body
    exec (.validate (head ++ (Config.cfg.checksum head).toBytes ++ junk) cap) s = .next { s with
      opActive := none, rxbuf := [], held := { s.held with rx := false }
      result := some {
        op := .validate
        outcome :=
          match body with
          | [b] =>
            match Config.cfg.statusMap b with
            | some .success => .success
            | some .macMismatch => .macMismatch
            | some .parseError => .parseError
            | some .execFault => .execFault
            | some .execError => .execError
            | some .awake => .awake
            | some .commError => .commError
            | some .nak => .nak
            | none => .commError
          | _ => .success
        reason := none, frame := []
        payload := if body.length = 1 then [] else body
        digest := [], matched := none, attempts := 0 } }

/-- R221, R226: an outcome other than COMM_ERROR is only ever given to an input that begins with a frame of at
least four bytes within the capacity whose checksum is right. -/
def Obligations.ValidateAcceptsOnlyFrames : Prop :=
  ∀ (raw : Bytes) (cap : Nat) (s t : State) (r : Result),
    exec (.validate raw cap) s = .next t → t.result = some r → r.outcome ≠ .commError →
    ∃ (len : Byte) (body junk : Bytes),
      raw = (len :: body) ++ (Config.cfg.checksum (len :: body)).toBytes ++ junk ∧
      len.toNat = body.length + 3 ∧ 4 ≤ len.toNat ∧ len.toNat ≤ cap

/-- R230 (the spec's own inference), R224: the record VALIDATE writes depends on the examined bytes and the
capacity only, not on the bytes after the frame and not on the state. -/
def Obligations.ValidateDependsOnExaminedBytes : Prop :=
  ∀ (raw raw' : Bytes) (cap : Nat) (s s' : State), examined raw = examined raw' →
    ∃ t t', exec (.validate raw cap) s = .next t ∧ exec (.validate raw' cap) s' = .next t' ∧
      t.result = t'.result

/-- R231 (the spec's own inference): a frame SERIALIZE built, given to VALIDATE unaltered with a capacity it
fits, is SUCCESS with the opcode, the parameters and the command payload. -/
def Obligations.SerializedFrameValidates : Prop :=
  ∀ (d : CommandDescriptor) (s₀ t₀ s : State) (r₀ : Result) (cap : Nat),
    exec (.serialize d) s₀ = .next t₀ → t₀.result = some r₀ → r₀.outcome = .success →
    r₀.frame.length ≤ cap →
    exec (.validate r₀.frame cap) s = .next { s with
      opActive := none, rxbuf := [], held := { s.held with rx := false }
      result := some { Result.blank .validate with
        payload := [d.opcode, d.param1, d.param2.b0, d.param2.b1] ++ d.payload } }

/-- R120, R228: the two status bytes the source fixes: a one-byte body 0x00 is SUCCESS with an empty payload and
a one-byte body 0xAA is NAK. -/
def Obligations.SourceStatusBytes : Prop :=
  ∀ (cap : Nat) (s : State), 4 ≤ cap →
    exec (.validate ([0x04, 0x00] ++ (Config.cfg.checksum [0x04, 0x00]).toBytes) cap) s = .next { s with
      opActive := none, rxbuf := [], held := { s.held with rx := false }, result := some (Result.blank .validate) } ∧
    exec (.validate ([0x04, 0xAA] ++ (Config.cfg.checksum [0x04, 0xAA]).toBytes) cap) s = .next { s with
      opActive := none, rxbuf := [], held := { s.held with rx := false }
      result := some { Result.blank .validate with outcome := .nak } }

/-! EXECUTE. -/

/-- R181, R151: a payload that does not fit is PROGRAMMING_ERROR with reason OVERSIZE and attempts 0, before any
port request; ENG_STATE is IDLE, ATTEMPT is 0, and nothing else changes. -/
def Obligations.ExecuteOversize : Prop :=
  ∀ (d : CommandDescriptor) (s : State), Config.cfg.maxFrame < d.payload.length + 7 →
    exec (.execute d) s = .next { s with
      opActive := none, engState := .idle, attempt := 0
      result := some {
        op := .execute, outcome := .programmingError, reason := some .oversize, frame := []
        payload := [], digest := [], matched := none, attempts := 0 } }

/-- R181 to R189: EXECUTE of a payload that fits completes, and its bus traffic, outcome, payload and attempts
are those of a sequence of at most `MAX_ATTEMPTS` attempts, each writing the same frame: a success or a terminal
status ends it, a retryable class leads to one wake and the next attempt, and the last one allowed to
COMM_ERROR. -/
def Obligations.ExecuteRunsAttempts : Prop :=
  ∀ (d : CommandDescriptor) (s : State), d.payload.length + 7 ≤ Config.cfg.maxFrame →
    ∃ t k events outcome payload, exec (.execute d) s = .next t ∧
      Attempts Config.cfg (commandFrame Config.cfg d) d.texec Config.cfg.maxAttempts k events outcome payload ∧
      t.trace = s.trace ++ events ∧ t.attempt = k ∧
      t.result = some {
        op := .execute, outcome := outcome, reason := none, frame := [], payload := payload
        digest := [], matched := none, attempts := k }

/-- R191, R33, R35, R36: EXECUTE of a payload that fits returns; `ENG_STATE` tells success from any other
outcome, only a success carries a payload, both frame buffers are released, and MSGBUF, DIGBUF, the compare log
and what is the HOST's stay. It makes 1 to `MAX_ATTEMPTS` attempts (R190, the spec's own inference from R182 to
R189) and never returns NAK or AWAKE (R180, R41, R306, the spec's own inference from R186 and R188), nor
PROGRAMMING_ERROR (R181, R302). -/
def Obligations.ExecuteReturns : Prop :=
  ∀ (d : CommandDescriptor) (s : State), d.payload.length + 7 ≤ Config.cfg.maxFrame →
    ∃ t r, exec (.execute d) s = .next t ∧ t.result = some r ∧ r.op = .execute ∧ r.attempts = t.attempt ∧
      1 ≤ t.attempt ∧ t.attempt ≤ Config.cfg.maxAttempts ∧
      r.outcome ≠ .nak ∧ r.outcome ≠ .awake ∧ r.outcome ≠ .programmingError ∧
      t.engState = (if r.outcome = .success then .success else .fatalFailure) ∧
      (r.outcome ≠ .success → r.payload = []) ∧
      t.opActive = none ∧ t.txbuf = [] ∧ t.rxbuf = [] ∧ t.msgbuf = s.msgbuf ∧ t.digbuf = s.digbuf ∧
      t.held = { s.held with tx := false, rx := false } ∧
      t.cmpLog = s.cmpLog ∧ t.host = s.host ∧ t.delivered = s.delivered ∧ t.busyTests = s.busyTests

/-- R190 (the spec's own inference): with k attempts the trace of an EXECUTE has k WRITE, k - 1 WAKE, and one
WAIT and one READ for each attempt whose write was complete. -/
def Obligations.ExecuteTraceCounts : Prop :=
  ∀ (d : CommandDescriptor) (s t : State), d.payload.length + 7 ≤ Config.cfg.maxFrame →
    exec (.execute d) s = .next t →
    ∃ events, t.trace = s.trace ++ events ∧
      events.countP Event.isWrite = t.attempt ∧
      events.countP Event.isWake + 1 = t.attempt ∧
      events.countP Event.isWait = events.countP Event.isCompleteWrite ∧
      events.countP Event.isRead = events.countP Event.isCompleteWrite

/-- R182, R184, R185, R187, R308 (d; the spec's own inference): when the BUS takes the whole frame and its first
answer validates as SUCCESS or as a terminal status, EXECUTE makes one attempt, WRITE, WAIT, READ, and returns
that status; the payload is the validated one. -/
def Obligations.ExecuteFirstAnswerDecides : Prop :=
  ∀ (d : CommandDescriptor) (s : State) (n : Nat) (ws : List Nat) (r : Bytes) (rs : List Bytes)
    (st : DeviceStatus) (payload : Bytes),
    d.payload.length + 7 ≤ Config.cfg.maxFrame →
    s.bus.writes = n :: ws → d.payload.length + 7 ≤ n →
    s.bus.reads = r :: rs → r.length ≤ Config.cfg.rspCap →
    validateFn Config.cfg r Config.cfg.rspCap = (st, payload) →
    st = .success ∨ st = .macMismatch ∨ st = .parseError ∨ st = .execFault ∨ st = .execError →
    exec (.execute d) s = .next { s with
      opActive := none
      engState := if st = .success then .success else .fatalFailure
      attempt := 1
      txbuf := [], rxbuf := [], held := { s.held with tx := false, rx := false }
      result := some {
        op := .execute, outcome := outcomeOf st, reason := none, frame := [], payload := payload
        digest := [], matched := none, attempts := 1 }
      trace := s.trace ++
        [.write (commandFrame Config.cfg d) (d.payload.length + 7), .wait d.texec, .read Config.cfg.rspCap r]
      bus := { wakes := s.bus.wakes, writes := ws, reads := rs, drawn := s.bus.drawn } }

/-- R183, R186, R188, R189, R308 (d; the spec's own inference): when the BUS's first attempts, fewer than
`MAX_ATTEMPTS`, each end in a short write or in an answer of a retryable class (NAK, COMM_ERROR, AWAKE), and the
next takes the whole frame and is answered with another status, EXECUTE issues exactly the events of these
attempts, with one wake after each retried one and its answer recorded, and returns the status of the last. The
wakes' answers are those of the BUS's script where it has enough of them. -/
def Obligations.ExecuteRetriesThenAnswers : Prop :=
  ∀ (d : CommandDescriptor) (s : State) (retried : List BusAttempt) (n : Nat) (ws : List Nat) (r : Bytes)
    (rs : List Bytes) (st : DeviceStatus) (payload : Bytes),
    d.payload.length + 7 ≤ Config.cfg.maxFrame →
    s.bus.writes = retried.map BusAttempt.count ++ n :: ws → d.payload.length + 7 ≤ n →
    s.bus.reads = retried.flatMap BusAttempt.answers ++ r :: rs → retried.length < Config.cfg.maxAttempts →
    (∀ a ∈ retried, a.Retried Config.cfg (d.payload.length + 7)) →
    r.length ≤ Config.cfg.rspCap → validateFn Config.cfg r Config.cfg.rspCap = (st, payload) →
    st ≠ .nak → st ≠ .commError → st ≠ .awake →
    ∃ (oks : List Bool) (bus : BusAnswers),
      oks.length = retried.length ∧ bus.writes = ws ∧ bus.reads = rs ∧
      (∀ script rest, s.bus.wakes = script ++ rest → script.length = retried.length →
        oks = script ∧ bus.wakes = rest ∧ bus.drawn = s.bus.drawn) ∧
      exec (.execute d) s = .next { s with
        opActive := none
        engState := if st = .success then .success else .fatalFailure
        attempt := retried.length + 1
        txbuf := [], rxbuf := [], held := { s.held with tx := false, rx := false }
        result := some {
          op := .execute, outcome := outcomeOf st, reason := none, frame := [], payload := payload
          digest := [], matched := none, attempts := retried.length + 1 }
        trace := s.trace ++
          (retried.zip oks).flatMap (fun x =>
            x.1.events Config.cfg (commandFrame Config.cfg d) d.texec ++ [.wake x.2]) ++
          [.write (commandFrame Config.cfg d) (d.payload.length + 7), .wait d.texec, .read Config.cfg.rspCap r]
        bus := bus }

/-- R188, R183, R186, R189: when each of the first `MAX_ATTEMPTS` attempts ends in a short write or in an answer
of a retryable class (a BUS that always answers NAK, say), EXECUTE issues exactly the events of these attempts,
so `MAX_ATTEMPTS` writes, with one wake between any two and its answer recorded, and then returns the terminal
outcome COMM_ERROR. The wakes' answers are those of the BUS's script where it has enough of them. -/
def Obligations.ExecuteRetryBound : Prop :=
  ∀ (d : CommandDescriptor) (s : State) (retried : List BusAttempt) (last : BusAttempt) (ws : List Nat)
    (rs : List Bytes),
    d.payload.length + 7 ≤ Config.cfg.maxFrame →
    s.bus.writes = retried.map BusAttempt.count ++ last.count :: ws →
    s.bus.reads = retried.flatMap BusAttempt.answers ++ (last.answers ++ rs) →
    retried.length + 1 = Config.cfg.maxAttempts →
    (∀ a ∈ retried, a.Retried Config.cfg (d.payload.length + 7)) →
    last.Retried Config.cfg (d.payload.length + 7) →
    ∃ (oks : List Bool) (bus : BusAnswers),
      oks.length = retried.length ∧ bus.writes = ws ∧ bus.reads = rs ∧
      (∀ script rest, s.bus.wakes = script ++ rest → script.length = retried.length →
        oks = script ∧ bus.wakes = rest ∧ bus.drawn = s.bus.drawn) ∧
      exec (.execute d) s = .next { s with
        opActive := none, engState := .fatalFailure, attempt := Config.cfg.maxAttempts
        txbuf := [], rxbuf := [], held := { s.held with tx := false, rx := false }
        result := some {
          op := .execute, outcome := .commError, reason := none, frame := [], payload := []
          digest := [], matched := none, attempts := Config.cfg.maxAttempts }
        trace := s.trace ++
          (retried.zip oks).flatMap (fun x =>
            x.1.events Config.cfg (commandFrame Config.cfg d) d.texec ++ [.wake x.2]) ++
          last.events Config.cfg (commandFrame Config.cfg d) d.texec
        bus := bus }

/-- R183: a write that the BUS does not take whole ends its attempt with no wait and no read: when no write is
taken whole, EXECUTE returns COMM_ERROR after `MAX_ATTEMPTS` writes, and no answer to a read is used. A short
write among other attempts stands in `ExecuteRetriesThenAnswers` and `ExecuteRetryBound`. -/
def Obligations.ExecuteShortWritesReadNothing : Prop :=
  ∀ (d : CommandDescriptor) (s : State) (ns ws : List Nat),
    d.payload.length + 7 ≤ Config.cfg.maxFrame →
    s.bus.writes = ns ++ ws → ns.length = Config.cfg.maxAttempts → (∀ n ∈ ns, n < d.payload.length + 7) →
    ∃ t events, exec (.execute d) s = .next t ∧ t.trace = s.trace ++ events ∧
      events.countP Event.isWrite = Config.cfg.maxAttempts ∧
      events.countP Event.isWait = 0 ∧ events.countP Event.isRead = 0 ∧
      t.bus.writes = ws ∧ t.bus.reads = s.bus.reads ∧ t.engState = .fatalFailure ∧
      t.result = some {
        op := .execute, outcome := .commError, reason := none, frame := [], payload := []
        digest := [], matched := none, attempts := Config.cfg.maxAttempts }

/-! CR_COMPUTE and CR_VERIFY. -/

/-- R250, R252, R253, R254: with operands of the required lengths CR_COMPUTE completes with the digest of the
message, issues that one HASH request, releases MSGBUF and DIGBUF and changes nothing else. -/
def Obligations.CrComputeDigestsMessage : Prop :=
  ∀ (challenge key : Bytes) (mode : Byte) (param2 : Byte2) (otp8 otp3 sn4 sn23 : Bytes) (s : State),
    challenge.length = 32 → key.length = 32 → otp8.length = 8 → otp3.length = 3 → sn4.length = 4 →
    sn23.length = 2 →
    let m : Bytes := key ++ challenge ++ [Config.cfg.crOpcode, mode, param2.b0, param2.b1] ++ otp8 ++ otp3 ++
      [Config.cfg.sn8Const] ++ sn4 ++ [Config.cfg.sn01Const.b0, Config.cfg.sn01Const.b1] ++ sn23
    exec (.crCompute challenge key mode param2 otp8 otp3 sn4 sn23) s = .next { s with
      opActive := none, msgbuf := [], digbuf := [], held := { s.held with msg := false, dig := false }
      trace := s.trace ++ [.hash m (Config.cfg.digest m).toList]
      result := some {
        op := .crCompute, outcome := .success, reason := none, frame := [], payload := []
        digest := (Config.cfg.digest m).toList, matched := none, attempts := 0 } }

/-- R130: the message CR_COMPUTE hands to the DIGEST port is 88 bytes, each field at the offset and of the width
the rule's table gives it. -/
def Obligations.CrMessageLayout : Prop :=
  ∀ (challenge key : Bytes) (mode : Byte) (param2 : Byte2) (otp8 otp3 sn4 sn23 : Bytes) (s : State),
    challenge.length = 32 → key.length = 32 → otp8.length = 8 → otp3.length = 3 → sn4.length = 4 →
    sn23.length = 2 →
    ∃ t m h, exec (.crCompute challenge key mode param2 otp8 otp3 sn4 sn23) s = .next t ∧
      t.trace = s.trace ++ [.hash m h] ∧ m.length = 88 ∧
      m.take 32 = key ∧ (m.drop 32).take 32 = challenge ∧
      m[64]? = some Config.cfg.crOpcode ∧ m[65]? = some mode ∧
      m[66]? = some param2.b0 ∧ m[67]? = some param2.b1 ∧
      (m.drop 68).take 8 = otp8 ∧ (m.drop 76).take 3 = otp3 ∧
      m[79]? = some Config.cfg.sn8Const ∧ (m.drop 80).take 4 = sn4 ∧
      m[84]? = some Config.cfg.sn01Const.b0 ∧ m[85]? = some Config.cfg.sn01Const.b1 ∧
      m.drop 86 = sn23

/-- R251: with an operand of a wrong length CR_COMPUTE is PROGRAMMING_ERROR with the reason of the first one in
the order challenge, key, otp8, otp3, sn4, sn23; there is no HASH request and nothing else changes. -/
def Obligations.CrComputeLengthErrors : Prop :=
  ∀ (challenge key : Bytes) (mode : Byte) (param2 : Byte2) (otp8 otp3 sn4 sn23 : Bytes) (s : State),
    ¬ (challenge.length = 32 ∧ key.length = 32 ∧ otp8.length = 8 ∧ otp3.length = 3 ∧ sn4.length = 4 ∧
      sn23.length = 2) →
    exec (.crCompute challenge key mode param2 otp8 otp3 sn4 sn23) s = .next { s with
      opActive := none
      result := some {
        op := .crCompute, outcome := .programmingError
        reason := some (
          if challenge.length ≠ 32 then .badLenChallenge
          else if key.length ≠ 32 then .badLenKey
          else if otp8.length ≠ 8 then .badLenOtp8
          else if otp3.length ≠ 3 then .badLenOtp3
          else if sn4.length ≠ 4 then .badLenSn4
          else .badLenSn23)
        frame := [], payload := [], digest := [], matched := none, attempts := 0 } }

/-- R260, R262, R264, R265 (its `iff` is the spec's own inference): with a slot below 16 and 32-byte operands
CR_VERIFY completes: it digests the message of mode 0x00, the encoded slot and zero OTP and serial fields, and
`match` is true exactly when that digest is the expected response; the digest is in no field of RESULT, and
nothing but the trace and the compare log changes beside the released buffers. -/
def Obligations.CrVerifyMatches : Prop :=
  ∀ (challenge expected key : Bytes) (slot : Nat) (s : State),
    slot < 16 → challenge.length = 32 → key.length = 32 → expected.length = 32 →
    let m : Bytes := key ++ challenge ++ [Config.cfg.crOpcode, 0x00] ++ (Config.cfg.slotEnc slot).toBytes ++
      zeros 8 ++ zeros 3 ++ [Config.cfg.sn8Const] ++ zeros 4 ++ Config.cfg.sn01Const.toBytes ++ zeros 2
    exec (.crVerify challenge expected key slot) s = .next { s with
      opActive := none, msgbuf := [], digbuf := [], held := { s.held with msg := false, dig := false }
      trace := s.trace ++ [.hash m (Config.cfg.digest m).toList]
      cmpLog := s.cmpLog ++ ((List.range 32).map .accumulate ++ [.test])
      result := some {
        op := .crVerify, outcome := .success, reason := none, frame := [], payload := [], digest := []
        matched := some (decide ((Config.cfg.digest m).toList = expected)), attempts := 0 } }

/-- R261, R263: with a slot of 16 or more, or an operand of a wrong length, CR_VERIFY is PROGRAMMING_ERROR with
the reason of the first violation in the order slot, challenge, key, expected; there is no HASH request and
nothing else changes. -/
def Obligations.CrVerifyOperandErrors : Prop :=
  ∀ (challenge expected key : Bytes) (slot : Nat) (s : State),
    ¬ (slot < 16 ∧ challenge.length = 32 ∧ key.length = 32 ∧ expected.length = 32) →
    exec (.crVerify challenge expected key slot) s = .next { s with
      opActive := none
      result := some {
        op := .crVerify, outcome := .programmingError
        reason := some (
          if 16 ≤ slot then .badSlot
          else if challenge.length ≠ 32 then .badLenChallenge
          else if key.length ≠ 32 then .badLenKey
          else .badLenExpected)
        frame := [], payload := [], digest := [], matched := none, attempts := 0 } }

/-- R264, R356: the compare of CR_VERIFY makes 32 accumulate steps, in index order, and one test, whatever the
32-byte inputs are and wherever they differ: any two runs that reach it add the same steps. -/
def Obligations.CrVerifyFixedTime : Prop :=
  ∀ (challenge expected key challenge' expected' key' : Bytes) (slot slot' : Nat) (s s' : State),
    slot < 16 → challenge.length = 32 → key.length = 32 → expected.length = 32 →
    slot' < 16 → challenge'.length = 32 → key'.length = 32 → expected'.length = 32 →
    ∃ t t' steps, exec (.crVerify challenge expected key slot) s = .next t ∧
      exec (.crVerify challenge' expected' key' slot') s' = .next t' ∧
      t.cmpLog = s.cmpLog ++ steps ∧ t'.cmpLog = s'.cmpLog ++ steps ∧
      steps.length = 33 ∧ steps[32]? = some .test ∧ ∀ j < 32, steps[j]? = some (.accumulate j)

/-- R266 (the spec's own inference, and a property of its source), verify symmetry: for every 32-byte challenge
and key and every slot below 16, CR_VERIFY with the CR_COMPUTE digest of mode 0x00, the encoded slot and zero
fields as the expected response gives match true. -/
def Obligations.VerifySymmetry : Prop :=
  ∀ (challenge key : Bytes) (slot : Nat) (s s' : State),
    challenge.length = 32 → key.length = 32 → slot < 16 →
    ∃ t r t' r',
      exec (.crCompute challenge key 0x00 (Config.cfg.slotEnc slot) (zeros 8) (zeros 3) (zeros 4) (zeros 2)) s =
        .next t ∧ t.result = some r ∧
      exec (.crVerify challenge r.digest key slot) s' = .next t' ∧ t'.result = some r' ∧
      r'.matched = some true

/-- R105 (the spec's own inference): CR_VERIFY is, on operands that pass its checks, CR_COMPUTE with the default
fields followed by an equality test of its digest with the expected response. -/
def Obligations.VerifyIsComputeThenCompare : Prop :=
  ∀ (challenge expected key : Bytes) (slot : Nat) (s s' : State),
    slot < 16 → challenge.length = 32 → key.length = 32 → expected.length = 32 →
    ∃ t r t' r' m h,
      exec (.crCompute challenge key 0x00 (Config.cfg.slotEnc slot) (zeros 8) (zeros 3) (zeros 4) (zeros 2)) s =
        .next t ∧ t.result = some r ∧ t.trace = s.trace ++ [.hash m h] ∧
      exec (.crVerify challenge expected key slot) s' = .next t' ∧ t'.result = some r' ∧
      t'.trace = s'.trace ++ [.hash m h] ∧
      r'.outcome = .success ∧ r'.digest = [] ∧ r'.matched = some (decide (r.digest = expected))

/-- R89 (the spec's own inference): the results of CR_COMPUTE and CR_VERIFY, and the events they issue, are the
same from every state, and they use no answer of the BUS. -/
def Obligations.ChallengeResponseIsPure : Prop :=
  ∀ (i : Instr) (s s' : State), i.op = .crCompute ∨ i.op = .crVerify →
    ∃ t t' events, exec i s = .next t ∧ exec i s' = .next t' ∧ t.result = t'.result ∧
      t.trace = s.trace ++ events ∧ t'.trace = s'.trace ++ events ∧
      t.bus = s.bus ∧ t'.bus = s'.bus

/-- R265, R38: what CR_VERIFY puts in RESULT tells no more of the digest, the key and the challenge than
`match`: any two runs that pass the checks and match alike write the same record. -/
def Obligations.CrVerifyExposesMatchOnly : Prop :=
  ∀ (challenge expected key challenge' expected' key' : Bytes) (slot slot' : Nat) (s s' t t' : State)
    (r r' : Result),
    exec (.crVerify challenge expected key slot) s = .next t → t.result = some r →
    exec (.crVerify challenge' expected' key' slot') s' = .next t' → t'.result = some r' →
    r.outcome = .success → r'.outcome = .success → r.matched = r'.matched → r = r'

/-- R267, by R10's SLOT_ENC injective: CR_VERIFY digests different messages for different slots. -/
def Obligations.DifferentSlotsDifferentMessages : Prop :=
  ∀ (challenge expected key : Bytes) (slot slot' : Nat) (s : State),
    slot < 16 → slot' < 16 → slot ≠ slot' → challenge.length = 32 → key.length = 32 → expected.length = 32 →
    ∃ t t' m h m' h', exec (.crVerify challenge expected key slot) s = .next t ∧
      exec (.crVerify challenge expected key slot') s = .next t' ∧
      t.trace = s.trace ++ [.hash m h] ∧ t'.trace = s.trace ++ [.hash m' h'] ∧ m ≠ m'

/-! The whole machine. -/

/-- R47: the invariant holds after reset. -/
def Obligations.InvariantAfterReset : Prop :=
  State.reset.Inv Config.cfg

/-- R33 to R42, R72, R78, R79, R306 (R34's bound is the spec's own inference): every step keeps the invariant:
no operation is left active, no buffer is left with a byte, `ENG_STATE` rests, `ATTEMPT` is bounded, every
record is one its operation may write, and every port event is within its contract. -/
def Obligations.StepKeepsInvariant : Prop :=
  ∀ s t : State, s.Inv Config.cfg → step s = .next t → t.Inv Config.cfg

/-- R44: no state carries meaning between operations: from any two states with the same coming BUS answers an
operation writes the same RESULT, issues the same events and uses the same answers. -/
def Obligations.NoStateBetweenOperations : Prop :=
  ∀ (i : Instr) (s s' : State), s.bus = s'.bus →
    ∃ t t' events, exec i s = .next t ∧ exec i s' = .next t' ∧ t.result = t'.result ∧
      t.trace = s.trace ++ events ∧ t'.trace = s'.trace ++ events ∧ t.bus = t'.bus

/-- R303, R302, R181: whichever operation ends with PROGRAMMING_ERROR, its record has a reason and every other
field "not written", OP_ACTIVE is NONE, and nothing else changes, no port request, buffer or field of the HOST
among them, but that EXECUTE has set `ENG_STATE` to IDLE and `ATTEMPT` to 0. That a buffer stays as it was,
because none has been filled, is the model's inference (DEDUCED, log entry 15). -/
def Obligations.ProgrammingErrorWritesNothingElse : Prop :=
  ∀ (i : Instr) (s t : State) (r : Result),
    exec i s = .next t → t.result = some r → r.outcome = .programmingError →
    ∃ p, mayRaise i.op p = true ∧
      r = { op := i.op, outcome := .programmingError, reason := some p, frame := [], payload := []
            digest := [], matched := none, attempts := 0 } ∧
      t = { s with
        opActive := none, result := some r
        engState := if i.op = .execute then .idle else s.engState
        attempt := if i.op = .execute then 0 else s.attempt }

/-- R84 (the spec's own inference), R254, R265: SERIALIZE and VALIDATE issue no event; CR_COMPUTE and CR_VERIFY
issue none, or one HASH event whose answer is the digest of its operand; EXECUTE issues no HASH event. -/
def Obligations.EventsOfEachOperation : Prop :=
  ∀ (i : Instr) (s : State), ∃ t events, exec i s = .next t ∧ t.trace = s.trace ++ events ∧
    (i.op = .serialize ∨ i.op = .validate → events = []) ∧
    (i.op = .crCompute ∨ i.op = .crVerify →
      events = [] ∨ ∃ m, m.length = 88 ∧ events = [.hash m (Config.cfg.digest m).toList]) ∧
    (i.op = .execute → ∀ m h, .hash m h ∉ events)

/-- R39, R71, R72: every operation, from any state between operations, returns: it writes its own record, clears
OP_ACTIVE and leaves every internal buffer released and empty, so that a read of one is a fault. -/
def Obligations.EveryOperationReturns : Prop :=
  ∀ (i : Instr) (s : State), s.Quiet →
    ∃ t r, exec i s = .next t ∧ t.result = some r ∧ r.op = i.op ∧ permitted i.op r.outcome = true ∧ t.Quiet ∧
      ∀ b, readBuffer b t = .error .releasedBuffer

/-- R307 (the spec's own inference), R341: no step takes an event back, a reset among them. -/
def Obligations.EventsAreNeverUndone : Prop :=
  ∀ s t : State, step s = .next t → ∃ events, t.trace = s.trace ++ events

/-- R152, R220, R254: SERIALIZE, VALIDATE, CR_COMPUTE and CR_VERIFY leave `ENG_STATE`, `ATTEMPT`, the BUS's
coming answers and what is the HOST's as they are, and each leaves the buffers the others use. -/
def Obligations.EngineUntouchedByOtherOperations : Prop :=
  ∀ (i : Instr) (s : State), i.op ≠ .execute →
    ∃ t, exec i s = .next t ∧ t.engState = s.engState ∧ t.attempt = s.attempt ∧ t.bus = s.bus ∧
      t.host = s.host ∧ t.delivered = s.delivered ∧ t.busyTests = s.busyTests ∧
      (i.op ≠ .serialize → t.txbuf = s.txbuf ∧ t.held.tx = s.held.tx) ∧
      (i.op ≠ .validate → t.rxbuf = s.rxbuf ∧ t.held.rx = s.held.rx) ∧
      (i.op = .serialize ∨ i.op = .validate →
        t.msgbuf = s.msgbuf ∧ t.digbuf = s.digbuf ∧ t.held.msg = s.held.msg ∧ t.held.dig = s.held.dig) ∧
      (i.op ≠ .crVerify → t.cmpLog = s.cmpLog)

/-- R343 (R10): the configuration meets every constraint. -/
def Obligations.ConfigurationMeetsConstraints : Prop :=
  7 ≤ Config.cfg.maxFrame ∧ Config.cfg.maxFrame ≤ 255 ∧ 1 ≤ Config.cfg.maxAttempts ∧
    4 ≤ Config.cfg.rspCap ∧ Config.cfg.rspCap ≤ 255 ∧
    Config.cfg.statusMap 0x00 = some .success ∧ Config.cfg.statusMap 0xAA = some .nak ∧
    (∀ a b st, Config.cfg.statusMap a = some st → Config.cfg.statusMap b = some st → a = b) ∧
    (∀ i < 16, ∀ j < 16, Config.cfg.slotEnc i = Config.cfg.slotEnc j → i = j) ∧
    (∀ (p q : Bytes) (a b : Byte), a ≠ b →
      Config.cfg.checksum (p ++ a :: q) ≠ Config.cfg.checksum (p ++ b :: q))

/-- R71, R72, R310: in any state, an operation active or not, a buffer that has been filled reads as what it was
filled with, one that has been released is a fault to read, and a release leaves every read of another buffer as
it was. -/
def Obligations.ReleasedBufferReadFaults : Prop :=
  ∀ (s : State) (x y : Bytes),
    (readBuffer .tx (fillTx x s) = .ok x ∧ readBuffer .rx (fillRx x s) = .ok x ∧
      readBuffer .msg (fillMsg x s) = .ok x ∧ readBuffer .dig (fillDig x s) = .ok x) ∧
    (readBuffer .tx (releaseTx (fillTx x s)) = .error .releasedBuffer ∧
      readBuffer .rx (releaseRx (fillRx x s)) = .error .releasedBuffer ∧
      readBuffer .msg (releaseMsgDig (fillDig y (fillMsg x s))) = .error .releasedBuffer ∧
      readBuffer .dig (releaseMsgDig (fillDig y (fillMsg x s))) = .error .releasedBuffer) ∧
    (∀ b, b ≠ .tx → readBuffer b (releaseTx s) = readBuffer b s) ∧
    (∀ b, b ≠ .rx → readBuffer b (releaseRx s) = readBuffer b s) ∧
    (∀ b, b ≠ .msg → b ≠ .dig → readBuffer b (releaseMsgDig s) = readBuffer b s)

/-- R123: each device status maps to the outcome of the same name, and none to PROGRAMMING_ERROR. -/
def Obligations.StatusOutcomeOfSameName : Prop :=
  outcomeOf .success = .success ∧ outcomeOf .macMismatch = .macMismatch ∧
    outcomeOf .parseError = .parseError ∧ outcomeOf .execFault = .execFault ∧
    outcomeOf .execError = .execError ∧ outcomeOf .awake = .awake ∧
    outcomeOf .commError = .commError ∧ outcomeOf .nak = .nak ∧
    ∀ st, outcomeOf st ≠ .programmingError
end

