-- ==== Sys2Proof/Laws/Decode.lean ====
section
/-! SUPPORT. Each field reader gives back what its encoder wrote, and nothing else. -/

namespace Sys2Proof

@[simp] theorem selectOp_opsel (op : OpName) : selectOp op.opsel = some op := by cases op <;> rfl

theorem opsel_of_selectOp (b : Byte) (op : OpName) (h : selectOp b = some op) : b = op.opsel := by
  unfold selectOp at h
  split_ifs at h <;> cases h <;> assumption

theorem readNat_encodeNat (n : Nat) (rest : Bytes) : readNat (encodeNat n ++ rest) = .ok (n, rest) := by
  induction n using Nat.strongRecOn with
  | ind n ih =>
    by_cases h : n < 255
    · have h0 : n / 255 = 0 := by omega
      have hm : n % 255 = n := by omega
      have hb : ¬ (BitVec.ofNat 8 n = (0xFF : Byte)) := by
        intro e; have := congrArg BitVec.toNat e
        have h255 : (0xFF : Byte).toNat = 255 := rfl
        simp only [BitVec.toNat_ofNat, h255] at this; omega
      have ht : (BitVec.ofNat 8 n).toNat = n := by simp only [BitVec.toNat_ofNat]; omega
      simp only [encodeNat, h0, hm, List.replicate_zero, List.nil_append, List.cons_append, readNat]
      rw [if_neg hb, ht]
    · have h1 : n / 255 = (n - 255) / 255 + 1 := by omega
      have h2 : n % 255 = (n - 255) % 255 := by omega
      have e : encodeNat n ++ rest = (0xFF : Byte) :: (encodeNat (n - 255) ++ rest) := by
        simp only [encodeNat, h1, h2, List.replicate_succ, List.cons_append]
      rw [e, readNat, if_pos rfl, ih (n - 255) (by omega)]
      simp only [Except.ok.injEq, Prod.mk.injEq, and_true]
      omega

theorem readBytes_encodeBytes (s rest : Bytes) : readBytes (encodeBytes s ++ rest) = .ok (s, rest) := by
  simp [readBytes, encodeBytes, List.append_assoc, readNat_encodeNat]

theorem readByte_cons (b : Byte) (rest : Bytes) : readByte (b :: rest) = .ok (b, rest) := rfl

theorem readByte2_toBytes (p : Byte2) (rest : Bytes) : readByte2 (p.toBytes ++ rest) = .ok (p, rest) := rfl

theorem readSmall_cons (n : Nat) (h : n ≤ 255) (rest : Bytes) :
    readSmall (BitVec.ofNat 8 n :: rest) = .ok (n, rest) := by
  simp only [readSmall, BitVec.toNat_ofNat, Except.ok.injEq, Prod.mk.injEq, and_true]
  omega

theorem readDescriptor_encodeDescriptor (d : CommandDescriptor) (rest : Bytes) :
    readDescriptor (encodeDescriptor d ++ rest) = .ok (d, rest) := by
  have e : encodeDescriptor d ++ rest =
      d.opcode :: d.param1 :: (d.param2.toBytes ++ (encodeBytes d.payload ++ (encodeNat d.texec ++ rest))) := by
    simp [encodeDescriptor, List.append_assoc]
  rw [e]
  simp only [readDescriptor, readByte_cons, readByte2_toBytes, readBytes_encodeBytes, readNat_encodeNat,
    bind, Except.bind, pure, Except.pure]

/-! What a reader accepted is what its encoder writes. -/

theorem readNat_ok (s : Bytes) : ∀ (n : Nat) (r : Bytes), readNat s = .ok (n, r) → s = encodeNat n ++ r := by
  induction s with
  | nil => intro n r h; cases h
  | cons b s ih =>
    intro n r h
    unfold readNat at h
    by_cases hb : b = 0xFF
    · rw [if_pos hb] at h
      cases hs : readNat s with
      | error e => rw [hs] at h; cases h
      | ok p =>
        obtain ⟨m, r'⟩ := p
        rw [hs] at h
        simp only [Except.ok.injEq, Prod.mk.injEq] at h
        obtain ⟨rfl, rfl⟩ := h
        have h1 : (m + 255) / 255 = m / 255 + 1 := by omega
        have h2 : (m + 255) % 255 = m % 255 := by omega
        rw [ih m r' hs, hb]
        simp only [encodeNat, h1, h2, List.replicate_succ, List.cons_append]
    · rw [if_neg hb] at h
      simp only [Except.ok.injEq, Prod.mk.injEq] at h
      obtain ⟨rfl, rfl⟩ := h
      have hlt : b.toNat < 255 := by
        have := b.isLt
        rcases Nat.lt_or_ge b.toNat 255 with h | h
        · exact h
        · exact absurd (BitVec.eq_of_toNat_eq (by rw [show b.toNat = 255 by omega]; rfl)) hb
      have h0 : b.toNat / 255 = 0 := by omega
      have hm : b.toNat % 255 = b.toNat := by omega
      simp [encodeNat, h0, hm]

theorem readBytes_ok (s x r : Bytes) (h : readBytes s = .ok (x, r)) : s = encodeBytes x ++ r := by
  unfold readBytes at h
  cases hs : readNat s with
  | error e => rw [hs] at h; cases h
  | ok p =>
    obtain ⟨n, t⟩ := p
    rw [hs] at h
    simp only at h
    split at h
    · simp only [Except.ok.injEq, Prod.mk.injEq] at h
      obtain ⟨rfl, rfl⟩ := h
      rename_i hle
      rw [readNat_ok s n t hs]
      simp [encodeBytes, Nat.min_eq_left hle]
    · cases h

theorem readByte_ok (s : Bytes) (b : Byte) (r : Bytes) (h : readByte s = .ok (b, r)) : s = b :: r := by
  cases s with
  | nil => cases h
  | cons x s => simp only [readByte, Except.ok.injEq, Prod.mk.injEq] at h; rw [h.1, h.2]

theorem readByte2_ok (s : Bytes) (p : Byte2) (r : Bytes) (h : readByte2 s = .ok (p, r)) :
    s = p.toBytes ++ r := by
  match s with
  | [] => cases h
  | [_] => cases h
  | x :: y :: s =>
    simp only [readByte2, Except.ok.injEq, Prod.mk.injEq] at h
    rw [← h.1, ← h.2]; rfl

theorem readSmall_ok (s : Bytes) (n : Nat) (r : Bytes) (h : readSmall s = .ok (n, r)) :
    s = BitVec.ofNat 8 n :: r ∧ n ≤ 255 := by
  cases s with
  | nil => cases h
  | cons x s =>
    simp only [readSmall, Except.ok.injEq, Prod.mk.injEq] at h
    obtain ⟨rfl, rfl⟩ := h
    have := x.isLt
    exact ⟨by simp, by omega⟩

/-- A `do` step of the readers that succeeds. -/
theorem except_bind_ok {α β : Type} (x : Except DecodeError α) (f : α → Except DecodeError β) (b : β)
    (h : x.bind f = .ok b) : ∃ a, x = .ok a ∧ f a = .ok b := by
  cases x with
  | error e => cases h
  | ok a => exact ⟨a, rfl, h⟩

theorem readDescriptor_ok (s : Bytes) (d : CommandDescriptor) (r : Bytes)
    (h : readDescriptor s = .ok (d, r)) : s = encodeDescriptor d ++ r := by
  unfold readDescriptor at h
  obtain ⟨⟨b0, s0⟩, e0, h⟩ := except_bind_ok _ _ _ h
  obtain ⟨⟨b1, s1⟩, e1, h⟩ := except_bind_ok _ _ _ h
  obtain ⟨⟨b2, s2⟩, e2, h⟩ := except_bind_ok _ _ _ h
  obtain ⟨⟨b3, s3⟩, e3, h⟩ := except_bind_ok _ _ _ h
  obtain ⟨⟨b4, s4⟩, e4, h⟩ := except_bind_ok _ _ _ h
  simp only [pure, Except.pure, Except.ok.injEq, Prod.mk.injEq] at h
  obtain ⟨rfl, rfl⟩ := h
  rw [readByte_ok _ _ _ e0, readByte_ok _ _ _ e1, readByte2_ok _ _ _ e2, readBytes_ok _ _ _ e3,
    readNat_ok _ _ _ e4]
  simp [encodeDescriptor, List.append_assoc]

end Sys2Proof
end

