-- ==== Sys2Proof/Laws/Operands.lean ====
section
/-! SUPPORT. When each precondition check passes, and what it answers when it does not. -/

namespace Sys2Proof.Machine

theorem sizeError_eq (c : Cfg) (d : CommandDescriptor) :
    sizeError c d = if d.payload.length + 7 ≤ c.maxFrame then none else some .oversize := by
  by_cases h : d.payload.length + 7 ≤ c.maxFrame <;> simp [sizeError, firstViolated, frameOverhead, h]

theorem sizeError_eq_none_iff (c : Cfg) (d : CommandDescriptor) :
    sizeError c d = none ↔ d.payload.length + 7 ≤ c.maxFrame := by
  rw [sizeError_eq]; split <;> simp_all

theorem sizeError_eq_some (c : Cfg) (d : CommandDescriptor) (p : PErr) (h : sizeError c d = some p) :
    p = .oversize ∧ c.maxFrame < d.payload.length + 7 := by
  rw [sizeError_eq] at h
  split at h
  · cases h
  · exact ⟨(Option.some.inj h).symm, by omega⟩

/-- The checks of a list all pass, or the answer is the reason of one of them. -/
theorem firstViolated_mem (l : List (Bool × PErr)) (p : PErr) (h : firstViolated l = some p) :
    p ∈ l.map Prod.snd := by
  induction l with
  | nil => cases h
  | cons x l ih =>
    obtain ⟨holds, reason⟩ := x
    cases holds with
    | true => exact List.mem_cons_of_mem _ (ih h)
    | false => simp_all [firstViolated]

theorem firstViolated_eq_none_iff (l : List (Bool × PErr)) :
    firstViolated l = none ↔ ∀ x ∈ l, x.1 = true := by
  induction l with
  | nil => simp [firstViolated]
  | cons x l ih =>
    obtain ⟨holds, reason⟩ := x
    cases holds <;> simp [firstViolated, ih]

theorem crComputeError_eq_none_iff (challenge key otp8 otp3 sn4 sn23 : Bytes) :
    crComputeError challenge key otp8 otp3 sn4 sn23 = none ↔
      challenge.length = 32 ∧ key.length = 32 ∧ otp8.length = 8 ∧ otp3.length = 3 ∧ sn4.length = 4
        ∧ sn23.length = 2 := by
  simp [crComputeError, firstViolated_eq_none_iff]

theorem crVerifyError_eq_none_iff (challenge expected key : Bytes) (slot : Nat) :
    crVerifyError challenge expected key slot = none ↔
      slot < 16 ∧ challenge.length = 32 ∧ key.length = 32 ∧ expected.length = 32 := by
  simp [crVerifyError, firstViolated_eq_none_iff]

end Sys2Proof.Machine
end

