-- ==== Sys2Proof/Laws/State.lean ====
section
/-! SUPPORT. What each update of the state leaves in each field: one lemma per field per update, for simp. -/

namespace Sys2Proof.Machine

@[simp] theorem release_eq (b : Bytes) : release b = [] := by simp [release]

/-! `start` -/

@[simp] theorem start_opActive (op : OpName) (s : State) : (start op s).opActive = some op := rfl
@[simp] theorem start_engState (op : OpName) (s : State) : (start op s).engState = s.engState := rfl
@[simp] theorem start_attempt (op : OpName) (s : State) : (start op s).attempt = s.attempt := rfl
@[simp] theorem start_txbuf (op : OpName) (s : State) : (start op s).txbuf = s.txbuf := rfl
@[simp] theorem start_rxbuf (op : OpName) (s : State) : (start op s).rxbuf = s.rxbuf := rfl
@[simp] theorem start_msgbuf (op : OpName) (s : State) : (start op s).msgbuf = s.msgbuf := rfl
@[simp] theorem start_digbuf (op : OpName) (s : State) : (start op s).digbuf = s.digbuf := rfl
@[simp] theorem start_held (op : OpName) (s : State) : (start op s).held = s.held := rfl
@[simp] theorem start_result (op : OpName) (s : State) : (start op s).result = s.result := rfl
@[simp] theorem start_trace (op : OpName) (s : State) : (start op s).trace = s.trace := rfl
@[simp] theorem start_cmpLog (op : OpName) (s : State) : (start op s).cmpLog = s.cmpLog := rfl
@[simp] theorem start_bus (op : OpName) (s : State) : (start op s).bus = s.bus := rfl
@[simp] theorem start_host (op : OpName) (s : State) : (start op s).host = s.host := rfl
@[simp] theorem start_delivered (op : OpName) (s : State) : (start op s).delivered = s.delivered := rfl
@[simp] theorem start_busyTests (op : OpName) (s : State) : (start op s).busyTests = s.busyTests := rfl

/-! `finish` -/

@[simp] theorem finish_opActive (r : Result) (s : State) : (finish r s).opActive = none := rfl
@[simp] theorem finish_engState (r : Result) (s : State) : (finish r s).engState = s.engState := rfl
@[simp] theorem finish_attempt (r : Result) (s : State) : (finish r s).attempt = s.attempt := rfl
@[simp] theorem finish_txbuf (r : Result) (s : State) : (finish r s).txbuf = s.txbuf := rfl
@[simp] theorem finish_rxbuf (r : Result) (s : State) : (finish r s).rxbuf = s.rxbuf := rfl
@[simp] theorem finish_msgbuf (r : Result) (s : State) : (finish r s).msgbuf = s.msgbuf := rfl
@[simp] theorem finish_digbuf (r : Result) (s : State) : (finish r s).digbuf = s.digbuf := rfl
@[simp] theorem finish_held (r : Result) (s : State) : (finish r s).held = s.held := rfl
@[simp] theorem finish_result (r : Result) (s : State) : (finish r s).result = some r := rfl
@[simp] theorem finish_trace (r : Result) (s : State) : (finish r s).trace = s.trace := rfl
@[simp] theorem finish_cmpLog (r : Result) (s : State) : (finish r s).cmpLog = s.cmpLog := rfl
@[simp] theorem finish_bus (r : Result) (s : State) : (finish r s).bus = s.bus := rfl
@[simp] theorem finish_host (r : Result) (s : State) : (finish r s).host = s.host := rfl
@[simp] theorem finish_delivered (r : Result) (s : State) : (finish r s).delivered = s.delivered := rfl
@[simp] theorem finish_busyTests (r : Result) (s : State) : (finish r s).busyTests = s.busyTests := rfl

/-! `raiseProgrammingError` -/

@[simp] theorem raiseProgrammingError_opActive (op : OpName) (p : PErr) (s : State) :
    (raiseProgrammingError op p s).opActive = none := rfl
@[simp] theorem raiseProgrammingError_engState (op : OpName) (p : PErr) (s : State) :
    (raiseProgrammingError op p s).engState = s.engState := rfl
@[simp] theorem raiseProgrammingError_attempt (op : OpName) (p : PErr) (s : State) :
    (raiseProgrammingError op p s).attempt = s.attempt := rfl
@[simp] theorem raiseProgrammingError_txbuf (op : OpName) (p : PErr) (s : State) :
    (raiseProgrammingError op p s).txbuf = s.txbuf := rfl
@[simp] theorem raiseProgrammingError_rxbuf (op : OpName) (p : PErr) (s : State) :
    (raiseProgrammingError op p s).rxbuf = s.rxbuf := rfl
@[simp] theorem raiseProgrammingError_msgbuf (op : OpName) (p : PErr) (s : State) :
    (raiseProgrammingError op p s).msgbuf = s.msgbuf := rfl
@[simp] theorem raiseProgrammingError_digbuf (op : OpName) (p : PErr) (s : State) :
    (raiseProgrammingError op p s).digbuf = s.digbuf := rfl
@[simp] theorem raiseProgrammingError_held (op : OpName) (p : PErr) (s : State) :
    (raiseProgrammingError op p s).held = s.held := rfl
@[simp] theorem raiseProgrammingError_result (op : OpName) (p : PErr) (s : State) :
    (raiseProgrammingError op p s).result = some { Result.blank op with outcome := .programmingError, reason := some p } := rfl
@[simp] theorem raiseProgrammingError_trace (op : OpName) (p : PErr) (s : State) :
    (raiseProgrammingError op p s).trace = s.trace := rfl
@[simp] theorem raiseProgrammingError_cmpLog (op : OpName) (p : PErr) (s : State) :
    (raiseProgrammingError op p s).cmpLog = s.cmpLog := rfl
@[simp] theorem raiseProgrammingError_bus (op : OpName) (p : PErr) (s : State) :
    (raiseProgrammingError op p s).bus = s.bus := rfl
@[simp] theorem raiseProgrammingError_host (op : OpName) (p : PErr) (s : State) :
    (raiseProgrammingError op p s).host = s.host := rfl
@[simp] theorem raiseProgrammingError_delivered (op : OpName) (p : PErr) (s : State) :
    (raiseProgrammingError op p s).delivered = s.delivered := rfl
@[simp] theorem raiseProgrammingError_busyTests (op : OpName) (p : PErr) (s : State) :
    (raiseProgrammingError op p s).busyTests = s.busyTests := rfl

/-! `recordEvent` -/

@[simp] theorem recordEvent_opActive (e : Event) (s : State) : (recordEvent e s).opActive = s.opActive := rfl
@[simp] theorem recordEvent_engState (e : Event) (s : State) : (recordEvent e s).engState = s.engState := rfl
@[simp] theorem recordEvent_attempt (e : Event) (s : State) : (recordEvent e s).attempt = s.attempt := rfl
@[simp] theorem recordEvent_txbuf (e : Event) (s : State) : (recordEvent e s).txbuf = s.txbuf := rfl
@[simp] theorem recordEvent_rxbuf (e : Event) (s : State) : (recordEvent e s).rxbuf = s.rxbuf := rfl
@[simp] theorem recordEvent_msgbuf (e : Event) (s : State) : (recordEvent e s).msgbuf = s.msgbuf := rfl
@[simp] theorem recordEvent_digbuf (e : Event) (s : State) : (recordEvent e s).digbuf = s.digbuf := rfl
@[simp] theorem recordEvent_held (e : Event) (s : State) : (recordEvent e s).held = s.held := rfl
@[simp] theorem recordEvent_result (e : Event) (s : State) : (recordEvent e s).result = s.result := rfl
@[simp] theorem recordEvent_trace (e : Event) (s : State) : (recordEvent e s).trace = s.trace ++ [e] := rfl
@[simp] theorem recordEvent_cmpLog (e : Event) (s : State) : (recordEvent e s).cmpLog = s.cmpLog := rfl
@[simp] theorem recordEvent_bus (e : Event) (s : State) : (recordEvent e s).bus = s.bus := rfl
@[simp] theorem recordEvent_host (e : Event) (s : State) : (recordEvent e s).host = s.host := rfl
@[simp] theorem recordEvent_delivered (e : Event) (s : State) : (recordEvent e s).delivered = s.delivered := rfl
@[simp] theorem recordEvent_busyTests (e : Event) (s : State) : (recordEvent e s).busyTests = s.busyTests := rfl

/-! `fillTx` -/

@[simp] theorem fillTx_opActive (f : Bytes) (s : State) : (fillTx f s).opActive = s.opActive := rfl
@[simp] theorem fillTx_engState (f : Bytes) (s : State) : (fillTx f s).engState = s.engState := rfl
@[simp] theorem fillTx_attempt (f : Bytes) (s : State) : (fillTx f s).attempt = s.attempt := rfl
@[simp] theorem fillTx_txbuf (f : Bytes) (s : State) : (fillTx f s).txbuf = f := rfl
@[simp] theorem fillTx_rxbuf (f : Bytes) (s : State) : (fillTx f s).rxbuf = s.rxbuf := rfl
@[simp] theorem fillTx_msgbuf (f : Bytes) (s : State) : (fillTx f s).msgbuf = s.msgbuf := rfl
@[simp] theorem fillTx_digbuf (f : Bytes) (s : State) : (fillTx f s).digbuf = s.digbuf := rfl
@[simp] theorem fillTx_held (f : Bytes) (s : State) : (fillTx f s).held = { s.held with tx := true } := rfl
@[simp] theorem fillTx_result (f : Bytes) (s : State) : (fillTx f s).result = s.result := rfl
@[simp] theorem fillTx_trace (f : Bytes) (s : State) : (fillTx f s).trace = s.trace := rfl
@[simp] theorem fillTx_cmpLog (f : Bytes) (s : State) : (fillTx f s).cmpLog = s.cmpLog := rfl
@[simp] theorem fillTx_bus (f : Bytes) (s : State) : (fillTx f s).bus = s.bus := rfl
@[simp] theorem fillTx_host (f : Bytes) (s : State) : (fillTx f s).host = s.host := rfl
@[simp] theorem fillTx_delivered (f : Bytes) (s : State) : (fillTx f s).delivered = s.delivered := rfl
@[simp] theorem fillTx_busyTests (f : Bytes) (s : State) : (fillTx f s).busyTests = s.busyTests := rfl

/-! `fillRx` -/

@[simp] theorem fillRx_opActive (r : Bytes) (s : State) : (fillRx r s).opActive = s.opActive := rfl
@[simp] theorem fillRx_engState (r : Bytes) (s : State) : (fillRx r s).engState = s.engState := rfl
@[simp] theorem fillRx_attempt (r : Bytes) (s : State) : (fillRx r s).attempt = s.attempt := rfl
@[simp] theorem fillRx_txbuf (r : Bytes) (s : State) : (fillRx r s).txbuf = s.txbuf := rfl
@[simp] theorem fillRx_rxbuf (r : Bytes) (s : State) : (fillRx r s).rxbuf = r := rfl
@[simp] theorem fillRx_msgbuf (r : Bytes) (s : State) : (fillRx r s).msgbuf = s.msgbuf := rfl
@[simp] theorem fillRx_digbuf (r : Bytes) (s : State) : (fillRx r s).digbuf = s.digbuf := rfl
@[simp] theorem fillRx_held (r : Bytes) (s : State) : (fillRx r s).held = { s.held with rx := true } := rfl
@[simp] theorem fillRx_result (r : Bytes) (s : State) : (fillRx r s).result = s.result := rfl
@[simp] theorem fillRx_trace (r : Bytes) (s : State) : (fillRx r s).trace = s.trace := rfl
@[simp] theorem fillRx_cmpLog (r : Bytes) (s : State) : (fillRx r s).cmpLog = s.cmpLog := rfl
@[simp] theorem fillRx_bus (r : Bytes) (s : State) : (fillRx r s).bus = s.bus := rfl
@[simp] theorem fillRx_host (r : Bytes) (s : State) : (fillRx r s).host = s.host := rfl
@[simp] theorem fillRx_delivered (r : Bytes) (s : State) : (fillRx r s).delivered = s.delivered := rfl
@[simp] theorem fillRx_busyTests (r : Bytes) (s : State) : (fillRx r s).busyTests = s.busyTests := rfl

/-! `fillMsg` -/

@[simp] theorem fillMsg_opActive (m : Bytes) (s : State) : (fillMsg m s).opActive = s.opActive := rfl
@[simp] theorem fillMsg_engState (m : Bytes) (s : State) : (fillMsg m s).engState = s.engState := rfl
@[simp] theorem fillMsg_attempt (m : Bytes) (s : State) : (fillMsg m s).attempt = s.attempt := rfl
@[simp] theorem fillMsg_txbuf (m : Bytes) (s : State) : (fillMsg m s).txbuf = s.txbuf := rfl
@[simp] theorem fillMsg_rxbuf (m : Bytes) (s : State) : (fillMsg m s).rxbuf = s.rxbuf := rfl
@[simp] theorem fillMsg_msgbuf (m : Bytes) (s : State) : (fillMsg m s).msgbuf = m := rfl
@[simp] theorem fillMsg_digbuf (m : Bytes) (s : State) : (fillMsg m s).digbuf = s.digbuf := rfl
@[simp] theorem fillMsg_held (m : Bytes) (s : State) : (fillMsg m s).held = { s.held with msg := true } := rfl
@[simp] theorem fillMsg_result (m : Bytes) (s : State) : (fillMsg m s).result = s.result := rfl
@[simp] theorem fillMsg_trace (m : Bytes) (s : State) : (fillMsg m s).trace = s.trace := rfl
@[simp] theorem fillMsg_cmpLog (m : Bytes) (s : State) : (fillMsg m s).cmpLog = s.cmpLog := rfl
@[simp] theorem fillMsg_bus (m : Bytes) (s : State) : (fillMsg m s).bus = s.bus := rfl
@[simp] theorem fillMsg_host (m : Bytes) (s : State) : (fillMsg m s).host = s.host := rfl
@[simp] theorem fillMsg_delivered (m : Bytes) (s : State) : (fillMsg m s).delivered = s.delivered := rfl
@[simp] theorem fillMsg_busyTests (m : Bytes) (s : State) : (fillMsg m s).busyTests = s.busyTests := rfl

/-! `fillDig` -/

@[simp] theorem fillDig_opActive (d : Bytes) (s : State) : (fillDig d s).opActive = s.opActive := rfl
@[simp] theorem fillDig_engState (d : Bytes) (s : State) : (fillDig d s).engState = s.engState := rfl
@[simp] theorem fillDig_attempt (d : Bytes) (s : State) : (fillDig d s).attempt = s.attempt := rfl
@[simp] theorem fillDig_txbuf (d : Bytes) (s : State) : (fillDig d s).txbuf = s.txbuf := rfl
@[simp] theorem fillDig_rxbuf (d : Bytes) (s : State) : (fillDig d s).rxbuf = s.rxbuf := rfl
@[simp] theorem fillDig_msgbuf (d : Bytes) (s : State) : (fillDig d s).msgbuf = s.msgbuf := rfl
@[simp] theorem fillDig_digbuf (d : Bytes) (s : State) : (fillDig d s).digbuf = d := rfl
@[simp] theorem fillDig_held (d : Bytes) (s : State) : (fillDig d s).held = { s.held with dig := true } := rfl
@[simp] theorem fillDig_result (d : Bytes) (s : State) : (fillDig d s).result = s.result := rfl
@[simp] theorem fillDig_trace (d : Bytes) (s : State) : (fillDig d s).trace = s.trace := rfl
@[simp] theorem fillDig_cmpLog (d : Bytes) (s : State) : (fillDig d s).cmpLog = s.cmpLog := rfl
@[simp] theorem fillDig_bus (d : Bytes) (s : State) : (fillDig d s).bus = s.bus := rfl
@[simp] theorem fillDig_host (d : Bytes) (s : State) : (fillDig d s).host = s.host := rfl
@[simp] theorem fillDig_delivered (d : Bytes) (s : State) : (fillDig d s).delivered = s.delivered := rfl
@[simp] theorem fillDig_busyTests (d : Bytes) (s : State) : (fillDig d s).busyTests = s.busyTests := rfl

/-! `releaseTx` -/

@[simp] theorem releaseTx_opActive (s : State) : (releaseTx s).opActive = s.opActive := rfl
@[simp] theorem releaseTx_engState (s : State) : (releaseTx s).engState = s.engState := rfl
@[simp] theorem releaseTx_attempt (s : State) : (releaseTx s).attempt = s.attempt := rfl
@[simp] theorem releaseTx_txbuf (s : State) : (releaseTx s).txbuf = [] := rfl
@[simp] theorem releaseTx_rxbuf (s : State) : (releaseTx s).rxbuf = s.rxbuf := rfl
@[simp] theorem releaseTx_msgbuf (s : State) : (releaseTx s).msgbuf = s.msgbuf := rfl
@[simp] theorem releaseTx_digbuf (s : State) : (releaseTx s).digbuf = s.digbuf := rfl
@[simp] theorem releaseTx_held (s : State) : (releaseTx s).held = { s.held with tx := false } := rfl
@[simp] theorem releaseTx_result (s : State) : (releaseTx s).result = s.result := rfl
@[simp] theorem releaseTx_trace (s : State) : (releaseTx s).trace = s.trace := rfl
@[simp] theorem releaseTx_cmpLog (s : State) : (releaseTx s).cmpLog = s.cmpLog := rfl
@[simp] theorem releaseTx_bus (s : State) : (releaseTx s).bus = s.bus := rfl
@[simp] theorem releaseTx_host (s : State) : (releaseTx s).host = s.host := rfl
@[simp] theorem releaseTx_delivered (s : State) : (releaseTx s).delivered = s.delivered := rfl
@[simp] theorem releaseTx_busyTests (s : State) : (releaseTx s).busyTests = s.busyTests := rfl

/-! `releaseRx` -/

@[simp] theorem releaseRx_opActive (s : State) : (releaseRx s).opActive = s.opActive := rfl
@[simp] theorem releaseRx_engState (s : State) : (releaseRx s).engState = s.engState := rfl
@[simp] theorem releaseRx_attempt (s : State) : (releaseRx s).attempt = s.attempt := rfl
@[simp] theorem releaseRx_txbuf (s : State) : (releaseRx s).txbuf = s.txbuf := rfl
@[simp] theorem releaseRx_rxbuf (s : State) : (releaseRx s).rxbuf = [] := rfl
@[simp] theorem releaseRx_msgbuf (s : State) : (releaseRx s).msgbuf = s.msgbuf := rfl
@[simp] theorem releaseRx_digbuf (s : State) : (releaseRx s).digbuf = s.digbuf := rfl
@[simp] theorem releaseRx_held (s : State) : (releaseRx s).held = { s.held with rx := false } := rfl
@[simp] theorem releaseRx_result (s : State) : (releaseRx s).result = s.result := rfl
@[simp] theorem releaseRx_trace (s : State) : (releaseRx s).trace = s.trace := rfl
@[simp] theorem releaseRx_cmpLog (s : State) : (releaseRx s).cmpLog = s.cmpLog := rfl
@[simp] theorem releaseRx_bus (s : State) : (releaseRx s).bus = s.bus := rfl
@[simp] theorem releaseRx_host (s : State) : (releaseRx s).host = s.host := rfl
@[simp] theorem releaseRx_delivered (s : State) : (releaseRx s).delivered = s.delivered := rfl
@[simp] theorem releaseRx_busyTests (s : State) : (releaseRx s).busyTests = s.busyTests := rfl

/-! `releaseMsgDig` -/

@[simp] theorem releaseMsgDig_opActive (s : State) : (releaseMsgDig s).opActive = s.opActive := rfl
@[simp] theorem releaseMsgDig_engState (s : State) : (releaseMsgDig s).engState = s.engState := rfl
@[simp] theorem releaseMsgDig_attempt (s : State) : (releaseMsgDig s).attempt = s.attempt := rfl
@[simp] theorem releaseMsgDig_txbuf (s : State) : (releaseMsgDig s).txbuf = s.txbuf := rfl
@[simp] theorem releaseMsgDig_rxbuf (s : State) : (releaseMsgDig s).rxbuf = s.rxbuf := rfl
@[simp] theorem releaseMsgDig_msgbuf (s : State) : (releaseMsgDig s).msgbuf = [] := rfl
@[simp] theorem releaseMsgDig_digbuf (s : State) : (releaseMsgDig s).digbuf = [] := rfl
@[simp] theorem releaseMsgDig_held (s : State) :
    (releaseMsgDig s).held = { s.held with msg := false, dig := false } := rfl
@[simp] theorem releaseMsgDig_result (s : State) : (releaseMsgDig s).result = s.result := rfl
@[simp] theorem releaseMsgDig_trace (s : State) : (releaseMsgDig s).trace = s.trace := rfl
@[simp] theorem releaseMsgDig_cmpLog (s : State) : (releaseMsgDig s).cmpLog = s.cmpLog := rfl
@[simp] theorem releaseMsgDig_bus (s : State) : (releaseMsgDig s).bus = s.bus := rfl
@[simp] theorem releaseMsgDig_host (s : State) : (releaseMsgDig s).host = s.host := rfl
@[simp] theorem releaseMsgDig_delivered (s : State) : (releaseMsgDig s).delivered = s.delivered := rfl
@[simp] theorem releaseMsgDig_busyTests (s : State) : (releaseMsgDig s).busyTests = s.busyTests := rfl

/-! `busWrite` -/

@[simp] theorem busWrite_opActive (s : State) : (busWrite s).2.opActive = s.opActive := rfl
@[simp] theorem busWrite_engState (s : State) : (busWrite s).2.engState = s.engState := rfl
@[simp] theorem busWrite_attempt (s : State) : (busWrite s).2.attempt = s.attempt := rfl
@[simp] theorem busWrite_txbuf (s : State) : (busWrite s).2.txbuf = s.txbuf := rfl
@[simp] theorem busWrite_rxbuf (s : State) : (busWrite s).2.rxbuf = s.rxbuf := rfl
@[simp] theorem busWrite_msgbuf (s : State) : (busWrite s).2.msgbuf = s.msgbuf := rfl
@[simp] theorem busWrite_digbuf (s : State) : (busWrite s).2.digbuf = s.digbuf := rfl
@[simp] theorem busWrite_held (s : State) : (busWrite s).2.held = s.held := rfl
@[simp] theorem busWrite_result (s : State) : (busWrite s).2.result = s.result := rfl
@[simp] theorem busWrite_trace (s : State) : (busWrite s).2.trace = s.trace ++ [.write s.txbuf (busWrite s).1] := rfl
@[simp] theorem busWrite_cmpLog (s : State) : (busWrite s).2.cmpLog = s.cmpLog := rfl
@[simp] theorem busWrite_bus (s : State) : (busWrite s).2.bus = (s.bus.nextWrite s.txbuf.length).2 := rfl
@[simp] theorem busWrite_host (s : State) : (busWrite s).2.host = s.host := rfl
@[simp] theorem busWrite_delivered (s : State) : (busWrite s).2.delivered = s.delivered := rfl
@[simp] theorem busWrite_busyTests (s : State) : (busWrite s).2.busyTests = s.busyTests := rfl

/-! `timerWait` -/

@[simp] theorem timerWait_opActive (d : Nat) (s : State) : (timerWait d s).opActive = s.opActive := rfl
@[simp] theorem timerWait_engState (d : Nat) (s : State) : (timerWait d s).engState = s.engState := rfl
@[simp] theorem timerWait_attempt (d : Nat) (s : State) : (timerWait d s).attempt = s.attempt := rfl
@[simp] theorem timerWait_txbuf (d : Nat) (s : State) : (timerWait d s).txbuf = s.txbuf := rfl
@[simp] theorem timerWait_rxbuf (d : Nat) (s : State) : (timerWait d s).rxbuf = s.rxbuf := rfl
@[simp] theorem timerWait_msgbuf (d : Nat) (s : State) : (timerWait d s).msgbuf = s.msgbuf := rfl
@[simp] theorem timerWait_digbuf (d : Nat) (s : State) : (timerWait d s).digbuf = s.digbuf := rfl
@[simp] theorem timerWait_held (d : Nat) (s : State) : (timerWait d s).held = s.held := rfl
@[simp] theorem timerWait_result (d : Nat) (s : State) : (timerWait d s).result = s.result := rfl
@[simp] theorem timerWait_trace (d : Nat) (s : State) : (timerWait d s).trace = s.trace ++ [.wait d] := rfl
@[simp] theorem timerWait_cmpLog (d : Nat) (s : State) : (timerWait d s).cmpLog = s.cmpLog := rfl
@[simp] theorem timerWait_bus (d : Nat) (s : State) : (timerWait d s).bus = s.bus := rfl
@[simp] theorem timerWait_host (d : Nat) (s : State) : (timerWait d s).host = s.host := rfl
@[simp] theorem timerWait_delivered (d : Nat) (s : State) : (timerWait d s).delivered = s.delivered := rfl
@[simp] theorem timerWait_busyTests (d : Nat) (s : State) : (timerWait d s).busyTests = s.busyTests := rfl

/-! `busRead` -/

@[simp] theorem busRead_opActive (m : Nat) (s : State) : (busRead m s).opActive = s.opActive := rfl
@[simp] theorem busRead_engState (m : Nat) (s : State) : (busRead m s).engState = s.engState := rfl
@[simp] theorem busRead_attempt (m : Nat) (s : State) : (busRead m s).attempt = s.attempt := rfl
@[simp] theorem busRead_txbuf (m : Nat) (s : State) : (busRead m s).txbuf = s.txbuf := rfl
@[simp] theorem busRead_rxbuf (m : Nat) (s : State) : (busRead m s).rxbuf = (s.bus.nextRead m).1 := rfl
@[simp] theorem busRead_msgbuf (m : Nat) (s : State) : (busRead m s).msgbuf = s.msgbuf := rfl
@[simp] theorem busRead_digbuf (m : Nat) (s : State) : (busRead m s).digbuf = s.digbuf := rfl
@[simp] theorem busRead_held (m : Nat) (s : State) : (busRead m s).held = { s.held with rx := true } := rfl
@[simp] theorem busRead_result (m : Nat) (s : State) : (busRead m s).result = s.result := rfl
@[simp] theorem busRead_trace (m : Nat) (s : State) :
    (busRead m s).trace = s.trace ++ [.read m (s.bus.nextRead m).1] := rfl
@[simp] theorem busRead_cmpLog (m : Nat) (s : State) : (busRead m s).cmpLog = s.cmpLog := rfl
@[simp] theorem busRead_bus (m : Nat) (s : State) : (busRead m s).bus = (s.bus.nextRead m).2 := rfl
@[simp] theorem busRead_host (m : Nat) (s : State) : (busRead m s).host = s.host := rfl
@[simp] theorem busRead_delivered (m : Nat) (s : State) : (busRead m s).delivered = s.delivered := rfl
@[simp] theorem busRead_busyTests (m : Nat) (s : State) : (busRead m s).busyTests = s.busyTests := rfl

/-! `busWake` -/

@[simp] theorem busWake_opActive (s : State) : (busWake s).opActive = s.opActive := rfl
@[simp] theorem busWake_engState (s : State) : (busWake s).engState = s.engState := rfl
@[simp] theorem busWake_attempt (s : State) : (busWake s).attempt = s.attempt := rfl
@[simp] theorem busWake_txbuf (s : State) : (busWake s).txbuf = s.txbuf := rfl
@[simp] theorem busWake_rxbuf (s : State) : (busWake s).rxbuf = s.rxbuf := rfl
@[simp] theorem busWake_msgbuf (s : State) : (busWake s).msgbuf = s.msgbuf := rfl
@[simp] theorem busWake_digbuf (s : State) : (busWake s).digbuf = s.digbuf := rfl
@[simp] theorem busWake_held (s : State) : (busWake s).held = s.held := rfl
@[simp] theorem busWake_result (s : State) : (busWake s).result = s.result := rfl
@[simp] theorem busWake_trace (s : State) : (busWake s).trace = s.trace ++ [.wake s.bus.nextWake.1] := rfl
@[simp] theorem busWake_cmpLog (s : State) : (busWake s).cmpLog = s.cmpLog := rfl
@[simp] theorem busWake_bus (s : State) : (busWake s).bus = s.bus.nextWake.2 := rfl
@[simp] theorem busWake_host (s : State) : (busWake s).host = s.host := rfl
@[simp] theorem busWake_delivered (s : State) : (busWake s).delivered = s.delivered := rfl
@[simp] theorem busWake_busyTests (s : State) : (busWake s).busyTests = s.busyTests := rfl

/-! `hashMessage` -/

@[simp] theorem hashMessage_opActive (c : Cfg) (s : State) : (hashMessage c s).opActive = s.opActive := rfl
@[simp] theorem hashMessage_engState (c : Cfg) (s : State) : (hashMessage c s).engState = s.engState := rfl
@[simp] theorem hashMessage_attempt (c : Cfg) (s : State) : (hashMessage c s).attempt = s.attempt := rfl
@[simp] theorem hashMessage_txbuf (c : Cfg) (s : State) : (hashMessage c s).txbuf = s.txbuf := rfl
@[simp] theorem hashMessage_rxbuf (c : Cfg) (s : State) : (hashMessage c s).rxbuf = s.rxbuf := rfl
@[simp] theorem hashMessage_msgbuf (c : Cfg) (s : State) : (hashMessage c s).msgbuf = s.msgbuf := rfl
@[simp] theorem hashMessage_digbuf (c : Cfg) (s : State) :
    (hashMessage c s).digbuf = (c.digest s.msgbuf).toList := rfl
@[simp] theorem hashMessage_held (c : Cfg) (s : State) : (hashMessage c s).held = { s.held with dig := true } := rfl
@[simp] theorem hashMessage_result (c : Cfg) (s : State) : (hashMessage c s).result = s.result := rfl
@[simp] theorem hashMessage_trace (c : Cfg) (s : State) :
    (hashMessage c s).trace = s.trace ++ [.hash s.msgbuf (c.digest s.msgbuf).toList] := rfl
@[simp] theorem hashMessage_cmpLog (c : Cfg) (s : State) : (hashMessage c s).cmpLog = s.cmpLog := rfl
@[simp] theorem hashMessage_bus (c : Cfg) (s : State) : (hashMessage c s).bus = s.bus := rfl
@[simp] theorem hashMessage_host (c : Cfg) (s : State) : (hashMessage c s).host = s.host := rfl
@[simp] theorem hashMessage_delivered (c : Cfg) (s : State) : (hashMessage c s).delivered = s.delivered := rfl
@[simp] theorem hashMessage_busyTests (c : Cfg) (s : State) : (hashMessage c s).busyTests = s.busyTests := rfl

/-! `digestMessage` -/

@[simp] theorem digestMessage_opActive (c : Cfg) (m : Bytes) (s : State) :
    (digestMessage c m s).opActive = s.opActive := rfl
@[simp] theorem digestMessage_engState (c : Cfg) (m : Bytes) (s : State) :
    (digestMessage c m s).engState = s.engState := rfl
@[simp] theorem digestMessage_attempt (c : Cfg) (m : Bytes) (s : State) :
    (digestMessage c m s).attempt = s.attempt := rfl
@[simp] theorem digestMessage_txbuf (c : Cfg) (m : Bytes) (s : State) : (digestMessage c m s).txbuf = s.txbuf := rfl
@[simp] theorem digestMessage_rxbuf (c : Cfg) (m : Bytes) (s : State) : (digestMessage c m s).rxbuf = s.rxbuf := rfl
@[simp] theorem digestMessage_msgbuf (c : Cfg) (m : Bytes) (s : State) : (digestMessage c m s).msgbuf = m := rfl
@[simp] theorem digestMessage_digbuf (c : Cfg) (m : Bytes) (s : State) :
    (digestMessage c m s).digbuf = (c.digest m).toList := rfl
@[simp] theorem digestMessage_held (c : Cfg) (m : Bytes) (s : State) :
    (digestMessage c m s).held = { s.held with msg := true, dig := true } := rfl
@[simp] theorem digestMessage_result (c : Cfg) (m : Bytes) (s : State) :
    (digestMessage c m s).result = s.result := rfl
@[simp] theorem digestMessage_trace (c : Cfg) (m : Bytes) (s : State) :
    (digestMessage c m s).trace = s.trace ++ [.hash m (c.digest m).toList] := rfl
@[simp] theorem digestMessage_cmpLog (c : Cfg) (m : Bytes) (s : State) :
    (digestMessage c m s).cmpLog = s.cmpLog := rfl
@[simp] theorem digestMessage_bus (c : Cfg) (m : Bytes) (s : State) : (digestMessage c m s).bus = s.bus := rfl
@[simp] theorem digestMessage_host (c : Cfg) (m : Bytes) (s : State) : (digestMessage c m s).host = s.host := rfl
@[simp] theorem digestMessage_delivered (c : Cfg) (m : Bytes) (s : State) :
    (digestMessage c m s).delivered = s.delivered := rfl
@[simp] theorem digestMessage_busyTests (c : Cfg) (m : Bytes) (s : State) :
    (digestMessage c m s).busyTests = s.busyTests := rfl

/-! `compareDigest` -/

@[simp] theorem compareDigest_opActive (e : Bytes) (s : State) : (compareDigest e s).2.opActive = s.opActive := rfl
@[simp] theorem compareDigest_engState (e : Bytes) (s : State) : (compareDigest e s).2.engState = s.engState := rfl
@[simp] theorem compareDigest_attempt (e : Bytes) (s : State) : (compareDigest e s).2.attempt = s.attempt := rfl
@[simp] theorem compareDigest_txbuf (e : Bytes) (s : State) : (compareDigest e s).2.txbuf = s.txbuf := rfl
@[simp] theorem compareDigest_rxbuf (e : Bytes) (s : State) : (compareDigest e s).2.rxbuf = s.rxbuf := rfl
@[simp] theorem compareDigest_msgbuf (e : Bytes) (s : State) : (compareDigest e s).2.msgbuf = s.msgbuf := rfl
@[simp] theorem compareDigest_digbuf (e : Bytes) (s : State) : (compareDigest e s).2.digbuf = s.digbuf := rfl
@[simp] theorem compareDigest_held (e : Bytes) (s : State) : (compareDigest e s).2.held = s.held := rfl
@[simp] theorem compareDigest_result (e : Bytes) (s : State) : (compareDigest e s).2.result = s.result := rfl
@[simp] theorem compareDigest_trace (e : Bytes) (s : State) : (compareDigest e s).2.trace = s.trace := rfl
@[simp] theorem compareDigest_cmpLog (e : Bytes) (s : State) :
    (compareDigest e s).2.cmpLog = s.cmpLog ++ (fixedTimeCompare s.digbuf e).2 := rfl
@[simp] theorem compareDigest_bus (e : Bytes) (s : State) : (compareDigest e s).2.bus = s.bus := rfl
@[simp] theorem compareDigest_host (e : Bytes) (s : State) : (compareDigest e s).2.host = s.host := rfl
@[simp] theorem compareDigest_delivered (e : Bytes) (s : State) : (compareDigest e s).2.delivered = s.delivered := rfl
@[simp] theorem compareDigest_busyTests (e : Bytes) (s : State) : (compareDigest e s).2.busyTests = s.busyTests := rfl

/-! `waitAndRead` -/

@[simp] theorem waitAndRead_opActive (c : Cfg) (d : Nat) (s : State) :
    (waitAndRead c d s).opActive = s.opActive := rfl
@[simp] theorem waitAndRead_engState (c : Cfg) (d : Nat) (s : State) :
    (waitAndRead c d s).engState = .awaitingResponse := rfl
@[simp] theorem waitAndRead_attempt (c : Cfg) (d : Nat) (s : State) : (waitAndRead c d s).attempt = s.attempt := rfl
@[simp] theorem waitAndRead_txbuf (c : Cfg) (d : Nat) (s : State) : (waitAndRead c d s).txbuf = s.txbuf := rfl
@[simp] theorem waitAndRead_rxbuf (c : Cfg) (d : Nat) (s : State) :
    (waitAndRead c d s).rxbuf = (s.bus.nextRead c.rspCap).1 := rfl
@[simp] theorem waitAndRead_msgbuf (c : Cfg) (d : Nat) (s : State) : (waitAndRead c d s).msgbuf = s.msgbuf := rfl
@[simp] theorem waitAndRead_digbuf (c : Cfg) (d : Nat) (s : State) : (waitAndRead c d s).digbuf = s.digbuf := rfl
@[simp] theorem waitAndRead_held (c : Cfg) (d : Nat) (s : State) :
    (waitAndRead c d s).held = { s.held with rx := true } := rfl
@[simp] theorem waitAndRead_result (c : Cfg) (d : Nat) (s : State) : (waitAndRead c d s).result = s.result := rfl
@[simp] theorem waitAndRead_trace (c : Cfg) (d : Nat) (s : State) :
    (waitAndRead c d s).trace = s.trace ++ [.wait d, .read c.rspCap (s.bus.nextRead c.rspCap).1] := by
  simp [waitAndRead]
@[simp] theorem waitAndRead_cmpLog (c : Cfg) (d : Nat) (s : State) : (waitAndRead c d s).cmpLog = s.cmpLog := rfl
@[simp] theorem waitAndRead_bus (c : Cfg) (d : Nat) (s : State) :
    (waitAndRead c d s).bus = (s.bus.nextRead c.rspCap).2 := rfl
@[simp] theorem waitAndRead_host (c : Cfg) (d : Nat) (s : State) : (waitAndRead c d s).host = s.host := rfl
@[simp] theorem waitAndRead_delivered (c : Cfg) (d : Nat) (s : State) :
    (waitAndRead c d s).delivered = s.delivered := rfl
@[simp] theorem waitAndRead_busyTests (c : Cfg) (d : Nat) (s : State) :
    (waitAndRead c d s).busyTests = s.busyTests := rfl

/-! `rewake` -/

@[simp] theorem rewake_opActive (s : State) : (rewake s).opActive = s.opActive := rfl
@[simp] theorem rewake_engState (s : State) : (rewake s).engState = .idle := rfl
@[simp] theorem rewake_attempt (s : State) : (rewake s).attempt = s.attempt := rfl
@[simp] theorem rewake_txbuf (s : State) : (rewake s).txbuf = s.txbuf := rfl
@[simp] theorem rewake_rxbuf (s : State) : (rewake s).rxbuf = s.rxbuf := rfl
@[simp] theorem rewake_msgbuf (s : State) : (rewake s).msgbuf = s.msgbuf := rfl
@[simp] theorem rewake_digbuf (s : State) : (rewake s).digbuf = s.digbuf := rfl
@[simp] theorem rewake_held (s : State) : (rewake s).held = s.held := rfl
@[simp] theorem rewake_result (s : State) : (rewake s).result = s.result := rfl
@[simp] theorem rewake_trace (s : State) : (rewake s).trace = s.trace ++ [.wake s.bus.nextWake.1] := rfl
@[simp] theorem rewake_cmpLog (s : State) : (rewake s).cmpLog = s.cmpLog := rfl
@[simp] theorem rewake_bus (s : State) : (rewake s).bus = s.bus.nextWake.2 := rfl
@[simp] theorem rewake_host (s : State) : (rewake s).host = s.host := rfl
@[simp] theorem rewake_delivered (s : State) : (rewake s).delivered = s.delivered := rfl
@[simp] theorem rewake_busyTests (s : State) : (rewake s).busyTests = s.busyTests := rfl

/-! `executeReturn` -/

@[simp] theorem executeReturn_opActive (o : LibOutcome) (p : Bytes) (s : State) :
    (executeReturn o p s).opActive = none := rfl
@[simp] theorem executeReturn_engState (o : LibOutcome) (p : Bytes) (s : State) :
    (executeReturn o p s).engState = s.engState := rfl
@[simp] theorem executeReturn_attempt (o : LibOutcome) (p : Bytes) (s : State) :
    (executeReturn o p s).attempt = s.attempt := rfl
@[simp] theorem executeReturn_txbuf (o : LibOutcome) (p : Bytes) (s : State) : (executeReturn o p s).txbuf = [] := rfl
@[simp] theorem executeReturn_rxbuf (o : LibOutcome) (p : Bytes) (s : State) : (executeReturn o p s).rxbuf = [] := rfl
@[simp] theorem executeReturn_msgbuf (o : LibOutcome) (p : Bytes) (s : State) :
    (executeReturn o p s).msgbuf = s.msgbuf := rfl
@[simp] theorem executeReturn_digbuf (o : LibOutcome) (p : Bytes) (s : State) :
    (executeReturn o p s).digbuf = s.digbuf := rfl
@[simp] theorem executeReturn_held (o : LibOutcome) (p : Bytes) (s : State) :
    (executeReturn o p s).held = { s.held with tx := false, rx := false } := rfl
@[simp] theorem executeReturn_result (o : LibOutcome) (p : Bytes) (s : State) :
    (executeReturn o p s).result = some { Result.blank .execute with outcome := o, payload := p, attempts := s.attempt } := rfl
@[simp] theorem executeReturn_trace (o : LibOutcome) (p : Bytes) (s : State) :
    (executeReturn o p s).trace = s.trace := rfl
@[simp] theorem executeReturn_cmpLog (o : LibOutcome) (p : Bytes) (s : State) :
    (executeReturn o p s).cmpLog = s.cmpLog := rfl
@[simp] theorem executeReturn_bus (o : LibOutcome) (p : Bytes) (s : State) : (executeReturn o p s).bus = s.bus := rfl
@[simp] theorem executeReturn_host (o : LibOutcome) (p : Bytes) (s : State) :
    (executeReturn o p s).host = s.host := rfl
@[simp] theorem executeReturn_delivered (o : LibOutcome) (p : Bytes) (s : State) :
    (executeReturn o p s).delivered = s.delivered := rfl
@[simp] theorem executeReturn_busyTests (o : LibOutcome) (p : Bytes) (s : State) :
    (executeReturn o p s).busyTests = s.busyTests := rfl

/-! `hostReset` -/

@[simp] theorem hostReset_opActive (s : State) : (hostReset s).opActive = none := rfl
@[simp] theorem hostReset_engState (s : State) : (hostReset s).engState = .idle := rfl
@[simp] theorem hostReset_attempt (s : State) : (hostReset s).attempt = 0 := rfl
@[simp] theorem hostReset_txbuf (s : State) : (hostReset s).txbuf = [] := rfl
@[simp] theorem hostReset_rxbuf (s : State) : (hostReset s).rxbuf = [] := rfl
@[simp] theorem hostReset_msgbuf (s : State) : (hostReset s).msgbuf = [] := rfl
@[simp] theorem hostReset_digbuf (s : State) : (hostReset s).digbuf = [] := rfl
@[simp] theorem hostReset_held (s : State) : (hostReset s).held = Held.none := rfl
@[simp] theorem hostReset_result (s : State) : (hostReset s).result = none := rfl
@[simp] theorem hostReset_trace (s : State) : (hostReset s).trace = s.trace := rfl
@[simp] theorem hostReset_cmpLog (s : State) : (hostReset s).cmpLog = s.cmpLog := rfl
@[simp] theorem hostReset_bus (s : State) : (hostReset s).bus = s.bus := rfl
@[simp] theorem hostReset_host (s : State) : (hostReset s).host = s.host := rfl
@[simp] theorem hostReset_delivered (s : State) : (hostReset s).delivered = s.delivered := rfl
@[simp] theorem hostReset_busyTests (s : State) : (hostReset s).busyTests = s.busyTests := rfl

/-! `hostReadOpActive` -/

@[simp] theorem hostReadOpActive_opActive (s : State) : (hostReadOpActive s).opActive = s.opActive := rfl
@[simp] theorem hostReadOpActive_engState (s : State) : (hostReadOpActive s).engState = s.engState := rfl
@[simp] theorem hostReadOpActive_attempt (s : State) : (hostReadOpActive s).attempt = s.attempt := rfl
@[simp] theorem hostReadOpActive_txbuf (s : State) : (hostReadOpActive s).txbuf = s.txbuf := rfl
@[simp] theorem hostReadOpActive_rxbuf (s : State) : (hostReadOpActive s).rxbuf = s.rxbuf := rfl
@[simp] theorem hostReadOpActive_msgbuf (s : State) : (hostReadOpActive s).msgbuf = s.msgbuf := rfl
@[simp] theorem hostReadOpActive_digbuf (s : State) : (hostReadOpActive s).digbuf = s.digbuf := rfl
@[simp] theorem hostReadOpActive_held (s : State) : (hostReadOpActive s).held = s.held := rfl
@[simp] theorem hostReadOpActive_result (s : State) : (hostReadOpActive s).result = s.result := rfl
@[simp] theorem hostReadOpActive_trace (s : State) : (hostReadOpActive s).trace = s.trace := rfl
@[simp] theorem hostReadOpActive_cmpLog (s : State) : (hostReadOpActive s).cmpLog = s.cmpLog := rfl
@[simp] theorem hostReadOpActive_bus (s : State) : (hostReadOpActive s).bus = s.bus := rfl
@[simp] theorem hostReadOpActive_host (s : State) : (hostReadOpActive s).host = s.host := rfl
@[simp] theorem hostReadOpActive_delivered (s : State) : (hostReadOpActive s).delivered = s.delivered := rfl
@[simp] theorem hostReadOpActive_busyTests (s : State) :
    (hostReadOpActive s).busyTests = s.busyTests ++ [s.opActive] := rfl

/-! `presentNext` -/

@[simp] theorem presentNext_opActive (bs : Bytes) (s : State) : (presentNext bs s).opActive = none := rfl
@[simp] theorem presentNext_engState (bs : Bytes) (s : State) : (presentNext bs s).engState = s.engState := rfl
@[simp] theorem presentNext_attempt (bs : Bytes) (s : State) : (presentNext bs s).attempt = s.attempt := rfl
@[simp] theorem presentNext_txbuf (bs : Bytes) (s : State) : (presentNext bs s).txbuf = s.txbuf := rfl
@[simp] theorem presentNext_rxbuf (bs : Bytes) (s : State) : (presentNext bs s).rxbuf = s.rxbuf := rfl
@[simp] theorem presentNext_msgbuf (bs : Bytes) (s : State) : (presentNext bs s).msgbuf = s.msgbuf := rfl
@[simp] theorem presentNext_digbuf (bs : Bytes) (s : State) : (presentNext bs s).digbuf = s.digbuf := rfl
@[simp] theorem presentNext_held (bs : Bytes) (s : State) : (presentNext bs s).held = s.held := rfl
@[simp] theorem presentNext_result (bs : Bytes) (s : State) : (presentNext bs s).result = s.result := rfl
@[simp] theorem presentNext_trace (bs : Bytes) (s : State) : (presentNext bs s).trace = s.trace := rfl
@[simp] theorem presentNext_cmpLog (bs : Bytes) (s : State) : (presentNext bs s).cmpLog = s.cmpLog := rfl
@[simp] theorem presentNext_bus (bs : Bytes) (s : State) : (presentNext bs s).bus = s.bus := rfl
@[simp] theorem presentNext_host (bs : Bytes) (s : State) : (presentNext bs s).host = .request bs :: s.host := rfl
@[simp] theorem presentNext_delivered (bs : Bytes) (s : State) : (presentNext bs s).delivered = s.delivered := rfl
@[simp] theorem presentNext_busyTests (bs : Bytes) (s : State) : (presentNext bs s).busyTests = s.busyTests := rfl

end Sys2Proof.Machine
end

