-- ==== Sys2Proof/Machine/AnyCfg.lean ====
section
/-! DEFINITION. The same block under a configuration given as an argument (spec R9): what a claim about a named
profile is stated of, and what runs the REF profile's vectors. -/

namespace Sys2Proof.Machine

/-- An operation under a configuration; `exec` is its value at `Config.cfg`. -/
def execUnder (c : Cfg) (i : Instr) (s : State) : Host.Outcome State Fault Refusal :=
  match i with
  | .serialize desc => .next (serialize c desc s)
  | .execute desc => .next (execute c desc s)
  | .validate raw cap => .next (validate c raw cap s)
  | .crCompute challenge key mode param2 otp8 otp3 sn4 sn23 =>
    .next (crCompute c challenge key mode param2 otp8 otp3 sn4 sn23 s)
  | .crVerify challenge expected key slot => .next (crVerify c challenge expected key slot s)

/-- One step under a configuration; `step` is its value at `Config.cfg`. -/
def stepUnder (c : Cfg) (s : State) : Host.Outcome State Fault Refusal := stepOver (execUnder c) s

end Sys2Proof.Machine
end

