-- ==== Sys2Proof/Laws/Exec.lean ====
section
/-! SUPPORT. The whole effect of each operation that uses no bus, as one equation per case, under any
configuration; and `exec` as the value of `execUnder` at the machine's configuration. -/

namespace Sys2Proof.Machine

theorem exec_eq_execUnder (i : Instr) (s : State) : exec i s = execUnder Config.cfg i s := by
  cases i <;> rfl

theorem step_eq_stepUnder (s : State) : step s = stepUnder Config.cfg s := by
  simp only [step, stepUnder, stepOver, exec_eq_execUnder]

/-- Every operation completes: `exec` answers a next state for every request and state (R300). -/
theorem execUnder_next (c : Cfg) (i : Instr) (s : State) : ∃ t, execUnder c i s = .next t := by
  cases i <;> exact ⟨_, rfl⟩

theorem serialize_of_fits (c : Cfg) (d : CommandDescriptor) (s : State) (h : d.payload.length + 7 ≤ c.maxFrame) :
    serialize c d s = { s with
      txbuf := [], held := { s.held with tx := false }, opActive := none
      result := some { Result.blank .serialize with frame := commandFrame c d } } := by
  simp only [serialize, (sizeError_eq_none_iff c d).2 h]
  simp [start, finish, fillTx, releaseTx]

theorem serialize_of_oversize (c : Cfg) (d : CommandDescriptor) (s : State)
    (h : c.maxFrame < d.payload.length + 7) :
    serialize c d s = { s with
      opActive := none
      result := some { Result.blank .serialize with outcome := .programmingError, reason := some .oversize } } := by
  have e : sizeError c d = some .oversize := by rw [sizeError_eq, if_neg (by omega)]
  simp only [serialize, e]
  rfl

theorem validate_eq (c : Cfg) (raw : Bytes) (cap : Nat) (s : State) :
    validate c raw cap s = { s with
      rxbuf := [], held := { s.held with rx := false }, opActive := none
      result := some { Result.blank .validate with
        outcome := outcomeOf (validateFn c raw cap).1, payload := (validateFn c raw cap).2 } } := by
  simp [validate, start, finish, fillRx, releaseRx]

theorem crCompute_of_lengths (c : Cfg) (challenge key : Bytes) (mode : Byte) (param2 : Byte2)
    (otp8 otp3 sn4 sn23 : Bytes) (s : State) (h : crComputeError challenge key otp8 otp3 sn4 sn23 = none) :
    crCompute c challenge key mode param2 otp8 otp3 sn4 sn23 s =
      (let m := crMessage c challenge key mode param2 otp8 otp3 sn4 sn23
       { s with
          msgbuf := [], digbuf := [], held := { s.held with msg := false, dig := false }, opActive := none
          trace := s.trace ++ [.hash m (c.digest m).toList]
          result := some { Result.blank .crCompute with digest := (c.digest m).toList } }) := by
  simp only [crCompute, h]
  simp [start, finish, releaseMsgDig, digestMessage, hashMessage, fillMsg, fillDig, recordEvent]

theorem crCompute_of_error (c : Cfg) (challenge key : Bytes) (mode : Byte) (param2 : Byte2)
    (otp8 otp3 sn4 sn23 : Bytes) (p : PErr) (s : State)
    (h : crComputeError challenge key otp8 otp3 sn4 sn23 = some p) :
    crCompute c challenge key mode param2 otp8 otp3 sn4 sn23 s = { s with
      opActive := none
      result := some { Result.blank .crCompute with outcome := .programmingError, reason := some p } } := by
  simp only [crCompute, h]
  rfl

theorem crVerify_of_operands (c : Cfg) (challenge expected key : Bytes) (slot : Nat) (s : State)
    (h : crVerifyError challenge expected key slot = none) :
    crVerify c challenge expected key slot s =
      (let m := crVerifyMessage c challenge key slot
       let r := fixedTimeCompare (c.digest m).toList expected
       { s with
          msgbuf := [], digbuf := [], held := { s.held with msg := false, dig := false }, opActive := none
          trace := s.trace ++ [.hash m (c.digest m).toList]
          cmpLog := s.cmpLog ++ r.2
          result := some { Result.blank .crVerify with matched := some r.1 } }) := by
  simp only [crVerify, h]
  simp [start, finish, releaseMsgDig, digestMessage, hashMessage, fillMsg, fillDig, recordEvent, compareDigest]

theorem crVerify_of_error (c : Cfg) (challenge expected key : Bytes) (slot : Nat) (p : PErr) (s : State)
    (h : crVerifyError challenge expected key slot = some p) :
    crVerify c challenge expected key slot s = { s with
      opActive := none
      result := some { Result.blank .crVerify with outcome := .programmingError, reason := some p } } := by
  simp only [crVerify, h]
  rfl

theorem execute_of_oversize (c : Cfg) (d : CommandDescriptor) (s : State)
    (h : c.maxFrame < d.payload.length + 7) :
    execute c d s = { s with
      opActive := none, engState := .idle, attempt := 0
      result := some { Result.blank .execute with outcome := .programmingError, reason := some .oversize } } := by
  have e : sizeError c d = some .oversize := by rw [sizeError_eq, if_neg (by omega)]
  simp only [execute, e]
  rfl

theorem execute_of_fits (c : Cfg) (d : CommandDescriptor) (s : State) (h : d.payload.length + 7 ≤ c.maxFrame) :
    execute c d s = attemptLoop c d.texec c.maxAttempts { s with
      opActive := some .execute, engState := .idle, attempt := 0, txbuf := commandFrame c d
      held := { s.held with tx := true } } := by
  simp only [execute, (sizeError_eq_none_iff c d).2 h]
  rfl

end Sys2Proof.Machine
end

