-- ==== Sys2Proof/Laws/Flags.lean ====
section
/-! SUPPORT. The fixed-time compare tells equality and takes the same steps whatever the bytes are. -/

namespace Sys2Proof.Machine

theorem accumulate_steps (d : Bytes) : ∀ (e : Bytes) (i : Nat) (acc : Byte), d.length = e.length →
    (accumulate i d e acc).2 = (List.range' i d.length).map .accumulate := by
  induction d with
  | nil => intro e i acc h; cases e <;> simp_all [accumulate]
  | cons x d ih =>
    intro e i acc h
    cases e with
    | nil => simp at h
    | cons y e =>
      simp only [List.length_cons, Nat.add_right_cancel_iff] at h
      simp [accumulate, ih e (i + 1) _ h, List.range'_succ]

theorem accumulate_eq_zero_iff (d : Bytes) : ∀ (e : Bytes) (i : Nat) (acc : Byte), d.length = e.length →
    ((accumulate i d e acc).1 = 0#8 ↔ acc = 0#8 ∧ d = e) := by
  induction d with
  | nil => intro e i acc h; cases e <;> simp_all [accumulate]
  | cons x d ih =>
    intro e i acc h
    cases e with
    | nil => simp at h
    | cons y e =>
      simp only [List.length_cons, Nat.add_right_cancel_iff] at h
      simp only [accumulate, ih e (i + 1) _ h, BitVec.or_eq_zero_iff, BitVec.xor_eq_zero_iff, List.cons.injEq,
        and_assoc]

theorem fixedTimeCompare_fst (d e : Bytes) (h : d.length = e.length) :
    (fixedTimeCompare d e).1 = decide (d = e) := by
  have := accumulate_eq_zero_iff d e 0 0#8 h
  by_cases hde : d = e <;> simp_all [fixedTimeCompare]

theorem fixedTimeCompare_snd (d e : Bytes) (h : d.length = e.length) :
    (fixedTimeCompare d e).2 = (List.range d.length).map .accumulate ++ [.test] := by
  simp [fixedTimeCompare, accumulate_steps d e 0 0#8 h, List.range_eq_range']

end Sys2Proof.Machine
end

