-- ==== Sys2Proof/Laws/Frame.lean ====
section
/-! SUPPORT. The lengths of the wire formats, and everything `validateFn` can answer. -/

namespace Sys2Proof.Machine

/-- The byte array of a `Byte2` determines it. -/
theorem toBytes_inj (a b : Byte2) (h : a.toBytes = b.toBytes) : a = b := by
  cases a; cases b; simpa [Byte2.toBytes] using h

@[simp] theorem checksumBytes_length (c : Cfg) (s : Bytes) : (checksumBytes c s).length = 2 := rfl

@[simp] theorem frameHead_length (d : CommandDescriptor) : (frameHead d).length = d.payload.length + 5 := by
  simp [frameHead, Byte2.toBytes]

@[simp] theorem commandFrame_length (c : Cfg) (d : CommandDescriptor) :
    (commandFrame c d).length = d.payload.length + 7 := by
  simp [commandFrame]

/-- R113: a frame that fits has a length byte equal to its length. -/
theorem frameLengthByte (d : CommandDescriptor) (h : d.payload.length + 7 ≤ 255) :
    (BitVec.ofNat 8 (d.payload.length + frameOverhead)).toNat = d.payload.length + 7 := by
  simp only [frameOverhead, BitVec.toNat_ofNat]
  omega

@[simp] theorem responseFrame_length (c : Cfg) (body : Bytes) :
    (responseFrame c body).length = body.length + 3 := by
  simp [responseFrame]

theorem crMessage_length (c : Cfg) (challenge key : Bytes) (mode : Byte) (param2 : Byte2)
    (otp8 otp3 sn4 sn23 : Bytes) (hc : challenge.length = 32) (hk : key.length = 32) (h8 : otp8.length = 8)
    (h3 : otp3.length = 3) (h4 : sn4.length = 4) (h2 : sn23.length = 2) :
    (crMessage c challenge key mode param2 otp8 otp3 sn4 sn23).length = 88 := by
  simp [crMessage, Byte2.toBytes, *]

/-- R221: a response frame within the capacity, whatever follows it, is read as its body. -/
theorem validateFn_responseFrame (c : Cfg) (body junk : Bytes) (cap : Nat) (h1 : 1 ≤ body.length)
    (hcap : body.length + 3 ≤ cap) (h255 : body.length + 3 ≤ 255) :
    validateFn c (responseFrame c body ++ junk) cap = interpretBody c body := by
  have hlen : (BitVec.ofNat 8 (body.length + 3)).toNat = body.length + 3 := by
    simp only [BitVec.toNat_ofNat]; omega
  have htake : (responseFrame c body ++ junk).take (body.length + 3) = responseFrame c body := by
    rw [List.take_append_of_le_length (by simp), List.take_of_length_le (by simp)]
  have hhead : (responseFrame c body).take (body.length + 1) = BitVec.ofNat 8 (body.length + 3) :: body := by
    simp [responseFrame]
  have htail : (responseFrame c body).drop (body.length + 1) =
      checksumBytes c (BitVec.ofNat 8 (body.length + 3) :: body) := by
    simp [responseFrame]
  have hfold : responseFrame c body ++ junk =
      BitVec.ofNat 8 (body.length + 3) :: (body ++ checksumBytes c (BitVec.ofNat 8 (body.length + 3) :: body) ++ junk) := by
    simp [responseFrame]
  have e : validateFn c (responseFrame c body ++ junk) cap =
      (let len := (BitVec.ofNat 8 (body.length + 3)).toNat
       if len < 4 then (.commError, [])
       else if len > cap then (.commError, [])
       else if (responseFrame c body ++ junk).length < len then (.commError, [])
       else
        let fr := (responseFrame c body ++ junk).take len
        if fr.drop (len - 2) ≠ checksumBytes c (fr.take (len - 2)) then (.commError, [])
        else interpretBody c ((fr.take (len - 2)).drop 1)) := by
    rw [hfold]; rfl
  rw [e]
  simp only [hlen, htake]
  have hsub : body.length + 3 - 2 = body.length + 1 := by omega
  rw [hsub, hhead, htail]
  simp only [List.length_append, responseFrame_length]
  rw [if_neg (by omega), if_neg (by omega), if_neg (by omega)]
  simp

/-- R221, said once: an answer of the validator is COMM_ERROR with no payload, or the input begins with a
response frame within the capacity and the answer is the meaning of its body. -/
theorem validateFn_cases (c : Cfg) (raw : Bytes) (cap : Nat) :
    validateFn c raw cap = (.commError, []) ∨
      ∃ body junk, raw = responseFrame c body ++ junk ∧ 1 ≤ body.length ∧ body.length + 3 ≤ cap
        ∧ body.length + 3 ≤ 255 ∧ validateFn c raw cap = interpretBody c body := by
  cases raw with
  | nil => left; rfl
  | cons b r =>
    by_cases h4 : b.toNat < 4
    · left; simp [validateFn, h4]
    by_cases hc : b.toNat > cap
    · left; simp [validateFn, h4, hc]
    by_cases hl : (b :: r).length < b.toNat
    · left; simp only [validateFn]; rw [if_neg h4, if_neg hc, if_pos hl]
    by_cases hk : ((b :: r).take b.toNat).drop (b.toNat - 2) =
        checksumBytes c (((b :: r).take b.toNat).take (b.toNat - 2))
    · right
      obtain ⟨n, hn⟩ : ∃ n, b.toNat = n + 4 := ⟨b.toNat - 4, by omega⟩
      have hb : b.toNat < 256 := b.isLt
      have e : validateFn c (b :: r) cap =
          interpretBody c ((((b :: r).take b.toNat).take (b.toNat - 2)).drop 1) := by
        simp only [validateFn]
        rw [if_neg h4, if_neg hc, if_neg hl, if_neg (not_not.mpr hk)]
      have hbody : (((b :: r).take b.toNat).take (b.toNat - 2)).drop 1 = r.take (n + 1) := by
        rw [hn, List.take_take]
        simp
      have hr : n + 3 ≤ r.length := by simp only [List.length_cons] at hl; omega
      have hbl : (r.take (n + 1)).length = n + 1 := by rw [List.length_take]; omega
      refine ⟨r.take (n + 1), (b :: r).drop b.toNat, ?_, by omega, by omega, by omega, by rw [e, hbody]⟩
      have hlb : BitVec.ofNat 8 ((r.take (n + 1)).length + 3) = b := by
        rw [hbl]; apply BitVec.eq_of_toNat_eq; simp only [BitVec.toNat_ofNat]; omega
      have hhead : ((b :: r).take b.toNat).take (b.toNat - 2) = b :: r.take (n + 1) := by
        rw [hn, List.take_take]; simp
      have hfr : (b :: r).take b.toNat = responseFrame c (r.take (n + 1)) := by
        rw [← List.take_append_drop (b.toNat - 2) ((b :: r).take b.toNat), hk, hhead]
        simp only [responseFrame, hlb]
      rw [← hfr, List.take_append_drop]
    · left
      simp only [validateFn]
      rw [if_neg h4, if_neg hc, if_neg hl, if_pos hk]

/-- R228: only a SUCCESS carries a payload. -/
theorem interpretBody_payload (c : Cfg) (body : Bytes) (h : (interpretBody c body).1 ≠ .success) :
    (interpretBody c body).2 = [] := by
  match body with
  | [] => simp [interpretBody] at h
  | [b] => cases hb : c.statusMap b <;> simp [interpretBody, hb]
  | _ :: _ :: _ => simp [interpretBody] at h

theorem validateFn_payload (c : Cfg) (raw : Bytes) (cap : Nat) (h : (validateFn c raw cap).1 ≠ .success) :
    (validateFn c raw cap).2 = [] := by
  rcases validateFn_cases c raw cap with e | ⟨body, junk, -, -, -, -, e⟩
  · rw [e]
  · rw [e] at h ⊢; exact interpretBody_payload c body h

/-- R116, R231: a command frame is a response frame whose body is the opcode, the parameters and the payload. -/
theorem commandFrame_eq_responseFrame (c : Cfg) (d : CommandDescriptor) :
    commandFrame c d = responseFrame c (d.opcode :: d.param1 :: d.param2.toBytes ++ d.payload) := by
  simp [commandFrame, responseFrame, frameHead, Byte2.toBytes, frameOverhead, Nat.add_assoc]

end Sys2Proof.Machine
end

