-- ==== Sys2Proof/Laws/Ops.lean ====
section
/-! SUPPORT. What each port request can do: the BUS's answers are within its contract (R78, R79), and an answer
of a script is that answer. -/

namespace Sys2Proof.Machine

theorem BusAnswers.nextWrite_le (len : Nat) (b : BusAnswers) : (b.nextWrite len).1 ≤ len := by
  unfold BusAnswers.nextWrite; split <;> exact Nat.min_le_right _ _

theorem BusAnswers.nextRead_length (m : Nat) (b : BusAnswers) : (b.nextRead m).1.length ≤ m := by
  unfold BusAnswers.nextRead; split <;> exact List.length_take_le _ _

theorem BusAnswers.nextWrite_cons (len n : Nat) (rest : List Nat) (b : BusAnswers) (h : b.writes = n :: rest) :
    b.nextWrite len = (min n len, { b with writes := rest }) := by
  unfold BusAnswers.nextWrite; rw [h]

theorem BusAnswers.nextRead_cons (m : Nat) (r : Bytes) (rest : List Bytes) (b : BusAnswers)
    (h : b.reads = r :: rest) : b.nextRead m = (r.take m, { b with reads := rest }) := by
  unfold BusAnswers.nextRead; rw [h]

theorem BusAnswers.nextWake_cons (ok : Bool) (rest : List Bool) (b : BusAnswers) (h : b.wakes = ok :: rest) :
    b.nextWake = (ok, { b with wakes := rest }) := by
  unfold BusAnswers.nextWake; rw [h]

/-! A request of one kind leaves the scripts of the others. -/

@[simp] theorem BusAnswers.nextWrite_reads (len : Nat) (b : BusAnswers) :
    (b.nextWrite len).2.reads = b.reads := by
  unfold BusAnswers.nextWrite; split <;> rfl

@[simp] theorem BusAnswers.nextWrite_wakes (len : Nat) (b : BusAnswers) :
    (b.nextWrite len).2.wakes = b.wakes := by
  unfold BusAnswers.nextWrite; split <;> rfl

@[simp] theorem BusAnswers.nextRead_writes (m : Nat) (b : BusAnswers) :
    (b.nextRead m).2.writes = b.writes := by
  unfold BusAnswers.nextRead; split <;> rfl

@[simp] theorem BusAnswers.nextRead_wakes (m : Nat) (b : BusAnswers) :
    (b.nextRead m).2.wakes = b.wakes := by
  unfold BusAnswers.nextRead; split <;> rfl

@[simp] theorem BusAnswers.nextWake_writes (b : BusAnswers) : b.nextWake.2.writes = b.writes := by
  unfold BusAnswers.nextWake; split <;> rfl

@[simp] theorem BusAnswers.nextWake_reads (b : BusAnswers) : b.nextWake.2.reads = b.reads := by
  unfold BusAnswers.nextWake; split <;> rfl

theorem busWrite_fst_le (s : State) : (busWrite s).1 ≤ s.txbuf.length := s.bus.nextWrite_le _

@[simp] theorem busRead_rxbuf_length_le (m : Nat) (s : State) : (busRead m s).rxbuf.length ≤ m :=
  s.bus.nextRead_length m

/-- R71, R310: a checked buffer read faults exactly when the buffer is released, and else gives its contents. -/
theorem readBuffer_fault_iff (b : Buffer) (s : State) :
    readBuffer b s = .error .releasedBuffer ↔ s.held.has b = false := by
  unfold readBuffer
  cases s.held.has b <;> simp

theorem readBuffer_held (b : Buffer) (s : State) (h : s.held.has b = true) :
    readBuffer b s = .ok (s.contents b) := by
  simp [readBuffer, h]

@[simp] theorem Held.none_has (b : Buffer) : Held.none.has b = false := by cases b <;> rfl

end Sys2Proof.Machine
end

