-- ==== Sys2Proof/Laws/PerInstr.lean ====
section
/-! SUPPORT. Facts of every operation, one lemma per constructor of Instr. -/

namespace Sys2Proof.Laws.OperandRecord

/-- R103: the operand record of a well-formed request is read back whole, with nothing of what follows it. -/
def Statement (i : Instr) : Prop :=
  i.wellFormed = true → ∀ rest : Bytes, readOperands i.op (encodeOperands i ++ rest) = .ok (i, rest)

theorem serialize (desc : CommandDescriptor) : Statement (.serialize desc) := by
  intro _ rest
  simp only [readOperands, Instr.op, encodeOperands, readDescriptor_encodeDescriptor, bind, Except.bind, pure,
    Except.pure]

theorem execute (desc : CommandDescriptor) : Statement (.execute desc) := by
  intro _ rest
  simp only [readOperands, Instr.op, encodeOperands, readDescriptor_encodeDescriptor, bind, Except.bind, pure,
    Except.pure]

theorem validate (raw : Bytes) (cap : Nat) : Statement (.validate raw cap) := by
  intro h rest
  have hc : cap ≤ 255 := of_decide_eq_true h
  simp only [readOperands, Instr.op, encodeOperands, List.append_assoc, List.cons_append, List.nil_append,
    readBytes_encodeBytes, readSmall_cons cap hc, bind, Except.bind, pure, Except.pure]

theorem crCompute (challenge key : Bytes) (mode : Byte) (param2 : Byte2) (otp8 otp3 sn4 sn23 : Bytes) :
    Statement (.crCompute challenge key mode param2 otp8 otp3 sn4 sn23) := by
  intro _ rest
  simp only [readOperands, Instr.op, encodeOperands, List.append_assoc, List.cons_append,
    readBytes_encodeBytes, readByte_cons, readByte2_toBytes, bind, Except.bind, pure, Except.pure]

theorem crVerify (challenge expected key : Bytes) (slot : Nat) :
    Statement (.crVerify challenge expected key slot) := by
  intro h rest
  have hs : slot ≤ 255 := of_decide_eq_true h
  simp only [readOperands, Instr.op, encodeOperands, List.append_assoc, List.cons_append, List.nil_append,
    readBytes_encodeBytes, readSmall_cons slot hs, bind, Except.bind, pure, Except.pure]

end Sys2Proof.Laws.OperandRecord
end

