-- ==== Sys2Proof/Machine/RefProfile.lean ====
section
/-! DEFINITION. The REF profile of spec R10 (93_implementation_defined.md G1 to G5): one configuration, not
normative, used for concrete bytes.  The machine does not run under it (DESIGN CHOICE, safe, log
entry 1); the tests use it. -/

namespace Sys2Proof.Machine.Ref

/-- G1: one bit of the CRC-16 with polynomial 0x8005: `d` is the data bit. -/
def crcBit (r : BitVec 16) (d : Bool) : BitVec 16 :=
  if d != r.getLsbD 15 then (r <<< 1) ^^^ 0x8005#16 else r <<< 1

/-- G1: one byte, bit 0 first. -/
def crcByte (r : BitVec 16) (b : Byte) : BitVec 16 :=
  [0, 1, 2, 3, 4, 5, 6, 7].foldl (fun r i => crcBit r (b.getLsbD i)) r

/-- G1: `CHECKSUM_REF`, the low byte first on the wire. -/
def checksum (s : Bytes) : Byte2 :=
  let r := s.foldl crcByte 0
  ⟨r.setWidth 8, (r >>> 8).setWidth 8⟩

/-! G2: SHA-256.  The spec names the function and gives digests; how it computes is FIPS 180-4 (PRESUMED, safe, log
entry 18).  Its constants are not tabled here but computed from what they are: the first 32 bits of the fractional
parts of the cube roots of the first 64 primes, and of the square roots of the first eight. -/

/-- A 32-bit word of the digest's working state. -/
abbrev Word32 := BitVec 32

/-- The primes below 312, which are the first 64: a number there is one if no prime below 18 divides it, or if it is
such a prime itself. -/
def primes : List Nat :=
  let small := [2, 3, 5, 7, 11, 13, 17]
  (List.range 312).filter fun n => 2 ≤ n && small.all fun p => n % p != 0 || n == p

/-- The greatest number below `r + 2 ^ bits` whose `k`-th power is at most `n`, found from its highest bit down,
where `r` is what is found so far. -/
def rootFrom (k n : Nat) : Nat → Nat → Nat
  | 0, r => r
  | bits + 1, r => rootFrom k n bits (if (r + 2 ^ bits) ^ k ≤ n then r + 2 ^ bits else r)

/-- The first 32 bits of the fractional part of the `k`-th root of `p`, a number below 512. -/
def rootFraction (k p : Nat) : Word32 := BitVec.ofNat 32 (rootFrom k (p * 2 ^ (32 * k)) 37 0)

/-- The round constants. -/
def roundConstants : List Word32 := primes.map (rootFraction 3)

/-- The exclusive or of a word rotated right by two amounts and of a third form of it. -/
def mixed (r1 r2 : Nat) (last : Word32 → Word32) (x : Word32) : Word32 :=
  x.rotateRight r1 ^^^ x.rotateRight r2 ^^^ last x

/-- The chaining words `a` to `h`, as the standard's working variables. -/
structure Chain where
  a : Word32
  b : Word32
  c : Word32
  d : Word32
  e : Word32
  f : Word32
  g : Word32
  h : Word32
  deriving DecidableEq, Repr

/-- The chaining words as a list, `a` first. -/
def Chain.toList (s : Chain) : List Word32 := [s.a, s.b, s.c, s.d, s.e, s.f, s.g, s.h]

/-- The chaining words a function gives at 0 to 7. -/
def Chain.ofFn (f : Nat → Word32) : Chain := ⟨f 0, f 1, f 2, f 3, f 4, f 5, f 6, f 7⟩

/-- The initial chaining words. -/
def initial : Chain := Chain.ofFn fun i => rootFraction 2 (primes.getD i 0)

/-- A number as `n` bytes, the most significant first. -/
def bigEndian : Nat → Nat → Bytes
  | 0, _ => []
  | n + 1, v => BitVec.ofNat 8 (v / 2 ^ (8 * n)) :: bigEndian n v

/-- A byte string as 32-bit words, the most significant byte first; a rest of fewer than four bytes does not occur
after padding. -/
def words : Bytes → List Word32
  | b0 :: b1 :: b2 :: b3 :: r => (b0 ++ b1 ++ b2 ++ b3 : BitVec (8 + 8 + 8 + 8)) :: words r
  | _ => []

/-- The padding of a message of `n` bytes: one bit 1, zeros up to a whole block, the length in bits in eight bytes. -/
def padding (n : Nat) : Bytes := 0x80 :: zeros ((119 - n % 64) % 64) ++ bigEndian 8 (8 * n)

/-- The schedule word that follows a window of the last sixteen, oldest first. -/
def nextWord (window : List Word32) : Word32 :=
  window.getD 0 0 + mixed 7 18 (· >>> 3) (window.getD 1 0) + window.getD 9 0 +
    mixed 17 19 (· >>> 10) (window.getD 14 0)

/-- One round, with its constant and schedule word already added. -/
def round (s : Chain) (kw : Word32) : Chain :=
  let choice := (s.e &&& s.f) ||| (~~~s.e &&& s.g)
  let majority := (s.a &&& s.b) ||| (s.c &&& (s.a ||| s.b))
  let t := s.h + mixed 6 11 (·.rotateRight 25) s.e + choice + kw
  { s with
    b := s.a, c := s.b, d := s.c, f := s.e, g := s.f, h := s.g
    a := t + mixed 2 13 (·.rotateRight 22) s.a + majority
    e := s.d + t }

/-- The rounds of one block, one for each constant, with the schedule's window moving along. -/
def rounds : List Word32 → List Word32 → Chain → Chain
  | [], _, s => s
  | k :: ks, window, s => rounds ks (window.tail ++ [nextWord window]) (round s (k + window.headD 0))

/-- One block of sixteen words into the chaining words. -/
def compress (s : Chain) (block : List Word32) : Chain :=
  let t := rounds roundConstants block s
  ⟨s.a + t.a, s.b + t.b, s.c + t.c, s.d + t.d, s.e + t.e, s.f + t.f, s.g + t.g, s.h + t.h⟩

/-- The blocks of a padded message; `fuel` is at least their number. -/
def blocks : Nat → List Word32 → Chain → Chain
  | 0, _, s => s
  | fuel + 1, ws, s => if ws.isEmpty then s else blocks fuel (ws.drop 16) (compress s (ws.take 16))

theorem bigEndian_length (n v : Nat) : (bigEndian n v).length = n := by
  induction n with
  | zero => rfl
  | succ n ih => rw [bigEndian, List.length_cons, ih]

/-- The chaining words as bytes, each word's most significant byte first. -/
def Chain.bytes (s : Chain) : Bytes := s.toList.flatMap fun w => bigEndian 4 w.toNat

theorem Chain.bytes_length (s : Chain) : s.bytes.length = 32 := by
  simp [Chain.bytes, Chain.toList, bigEndian_length]

/-- G2: the REF digest, SHA-256. -/
def digest (m : Bytes) : Vector Byte 32 :=
  let ws := words (m ++ padding m.length)
  let s := blocks (ws.length + 1) ws initial
  ⟨s.bytes.toArray, s.bytes_length⟩

/-- R121: the REF status map; only 0x00 and 0xAA come from the source. -/
def statusMap (b : Byte) : Option DeviceStatus :=
  if b = 0x00 then some .success
  else if b = 0x01 then some .macMismatch
  else if b = 0x03 then some .parseError
  else if b = 0x0F then some .execError
  else if b = 0x11 then some .awake
  else if b = 0xAA then some .nak
  else if b = 0xFF then some .commError
  else none

/-- R10: the REF profile.  The spec fixes no REF value for `TIME_UNIT`; the empty string stands for that here, and
nothing reads it (DESIGN CHOICE, safe, log entry 18). -/
def cfg : Cfg where
  maxFrame    := 255
  maxAttempts := 4
  rspCap      := 255
  checksum    := checksum
  digest      := digest
  statusMap   := statusMap
  crOpcode    := 0x08
  sn8Const    := 0xEE
  sn01Const   := ⟨0x01, 0x23⟩
  slotEnc     := fun slot => ⟨BitVec.ofNat 8 slot, 0x00⟩
  timeUnit    := ""

end Sys2Proof.Machine.Ref
end

