-- ==== Sys2Proof/Laws/RefProfile.lean ====
section
/-! SUPPORT. The REF profile of spec R10 meets every constraint of R10, its CRC the property (c) of R117
(93_implementation_defined.md G1) among them: a realistic configuration the model's claims hold for. -/

namespace Sys2Proof.Machine.Ref

/-- One bit of the CRC is linear over exclusive or. -/
theorem crcBit_xor (r s : BitVec 16) (d e : Bool) :
    crcBit (r ^^^ s) (d ^^ e) = crcBit r d ^^^ crcBit s e := by
  have hs : (r ^^^ s) <<< 1 = r <<< 1 ^^^ s <<< 1 := BitVec.shiftLeft_xor_distrib r s 1
  simp only [crcBit, BitVec.getLsbD_xor, hs]
  have hx : ∀ a b p : BitVec 16, a ^^^ b = a ^^^ p ^^^ (b ^^^ p) := by
    intro a b p; rw [show a ^^^ p ^^^ (b ^^^ p) = a ^^^ b ^^^ (p ^^^ p) by ac_rfl]; simp
  cases d <;> cases e <;> cases r.getLsbD 15 <;> cases s.getLsbD 15 <;> simp <;> first
    | ac_rfl
    | exact hx _ _ _

theorem crcByte_xor (r s : BitVec 16) (a b : Byte) :
    crcByte (r ^^^ s) (a ^^^ b) = crcByte r a ^^^ crcByte s b := by
  simp only [crcByte, List.foldl_cons, List.foldl_nil, BitVec.getLsbD_xor, crcBit_xor]

theorem foldl_crcByte_xor (q : Bytes) (r s : BitVec 16) :
    q.foldl crcByte (r ^^^ s) = q.foldl crcByte r ^^^ (zeros q.length).foldl crcByte s := by
  induction q generalizing r s with
  | nil => rfl
  | cons a q ih =>
    have h := crcByte_xor r s a 0#8
    rw [BitVec.xor_zero] at h
    simp only [List.foldl_cons, h, ih, zeros, List.length_cons, List.replicate_succ]
    rfl

/-- A bit 0 with no data keeps a register that is not zero from being zero: the polynomial has bit 0. -/
theorem crcBit_eq_zero (r : BitVec 16) (h : crcBit r false = 0#16) : r = 0#16 := by
  have h15 : r.getLsbD 15 = false := by
    cases hr : r.getLsbD 15 with
    | false => rfl
    | true =>
      have := congrArg (fun x : BitVec 16 => x.getLsbD 0) h
      simp [crcBit, hr] at this
  have h0 : r <<< 1 = 0#16 := by simpa only [crcBit, h15, bne_self_eq_false, Bool.false_eq_true, if_false] using h
  apply BitVec.eq_of_getLsbD_eq
  intro i hi
  rw [BitVec.getLsbD_zero]
  by_cases hi' : i = 15
  · rw [hi', h15]
  · have hb := congrArg (fun x : BitVec 16 => x.getLsbD (i + 1)) h0
    have hlt : i + 1 < 16 := by omega
    rw [BitVec.getLsbD_eq_getElem hi]
    simpa [BitVec.getLsbD_shiftLeft, hlt] using hb

theorem crcByte_zero (r : BitVec 16) (h : crcByte r 0#8 = 0#16) : r = 0#16 := by
  simp only [crcByte, List.foldl_cons, List.foldl_nil] at h
  iterate 8 replace h := crcBit_eq_zero _ h
  exact h

theorem foldl_zeros_eq_zero (n : Nat) (r : BitVec 16) (h : (zeros n).foldl crcByte r = 0#16) : r = 0#16 := by
  induction n generalizing r with
  | zero => exact h
  | succ n ih => exact crcByte_zero r (ih _ h)

/-- One byte alone is seen by the CRC. -/
theorem crcByte_of_ne_zero : ∀ b : Byte, crcByte 0#16 b = 0#16 → b = 0#8 := by decide +kernel

/-- G1, R117 (c). -/
theorem checksum_detects : Cfg.DetectsSingleByte checksum := by
  intro p q a b hab h
  have hr : (p ++ a :: q).foldl crcByte 0 = (p ++ b :: q).foldl crcByte 0 := by
    obtain ⟨h0, h1⟩ := Byte2.mk.inj h
    apply BitVec.eq_of_getLsbD_eq
    intro i hi
    by_cases h8 : i < 8
    · simpa [h8] using congrArg (fun x : BitVec 8 => x.getLsbD i) h0
    · have := congrArg (fun x : BitVec 8 => x.getLsbD (i - 8)) h1
      simpa [show i - 8 < 8 by omega, show 8 + (i - 8) = i by omega] using this
  simp only [List.foldl_append, List.foldl_cons] at hr
  generalize p.foldl crcByte 0 = r at hr
  have hb : crcByte r b = crcByte r a ^^^ crcByte 0#16 (a ^^^ b) := by
    rw [← crcByte_xor, BitVec.xor_zero, ← BitVec.xor_assoc, BitVec.xor_self, BitVec.zero_xor]
  rw [hb, foldl_crcByte_xor] at hr
  have hz := foldl_zeros_eq_zero q.length _ (by
    have h := congrArg (q.foldl crcByte (crcByte r a) ^^^ ·) hr
    simpa only [BitVec.xor_self, ← BitVec.xor_assoc, BitVec.zero_xor] using h.symm)
  exact hab (BitVec.xor_eq_zero_iff.1 (crcByte_of_ne_zero _ hz))

theorem statusMap_inj (a b : Byte) (st : DeviceStatus) (ha : statusMap a = some st)
    (hb : statusMap b = some st) : a = b := by
  simp only [statusMap] at ha hb
  split_ifs at ha hb <;> cases ha <;> first
    | (cases hb; simp_all)
    | cases hb

/-- R10, R343: the REF profile as a configuration the block can be instantiated with. -/
def validCfg : ValidCfg where
  val             := cfg
  maxFrame_ge     := by decide
  maxFrame_le     := by decide
  maxAttempts_pos := by decide
  rspCap_ge       := by decide
  rspCap_le       := by decide
  detects         := checksum_detects
  status_zero     := by decide
  status_nak      := by decide
  status_inj      := statusMap_inj
  slot_inj        := by decide

end Sys2Proof.Machine.Ref
end

