-- ==== Sys2Proof/Laws/Step.lean ====
section
/-! SUPPORT. Everything a step can do, said once. -/

namespace Sys2Proof.Machine

/-- R39, R352: with an operation active only a reset is taken. -/
theorem fetch_active (s : State) (op : OpName) (h : s.opActive = some op) (hr : ∀ rest, s.host ≠ .reset :: rest) :
    fetch s = .refused .busy := by
  cases hh : s.host with
  | nil => simp only [fetch, hh, whenIdle, h]
  | cons m rest =>
    cases m with
    | reset => exact absurd hh (hr rest)
    | _ => simp only [fetch, hh, whenIdle, h]

/-- R4, R46: a step that answers a next state found no move (and changes nothing), ran a request, ran one that a
reset cut off, or took one of the HOST's other moves; all but a reset only while no operation is active. -/
theorem step_cases (s t : State) (h : step s = .next t) :
    (s.opActive = none ∨ ∃ rest, s.host = .reset :: rest) ∧
      ((s.host = [] ∧ t = s) ∨
       (∃ bytes rest i, s.host = .request bytes :: rest ∧ decodeRequest bytes = .ok i ∧
          exec i { s with host := rest } = .next t) ∨
       (∃ bytes k rest i u, s.host = .requestThenReset bytes k :: rest ∧ decodeRequest bytes = .ok i ∧
          exec i { s with host := rest } = .next u ∧ t = resetDuring { s with host := rest } u k) ∨
       (∃ rest, s.host = .reset :: rest ∧ t = hostReset { s with host := rest }) ∨
       (∃ rest r, s.host = .readResult :: rest ∧ s.result = some r ∧
          t = { s with host := rest, delivered := s.delivered ++ [r] }) ∨
       (∃ rest, s.host = .readOpActive :: rest ∧
          t = { s with host := rest, busyTests := s.busyTests ++ [none] }) ∨
       (∃ rest use, s.host = .useBus use :: rest ∧ t = { s with host := rest })) := by
  by_cases hr : ∃ rest, s.host = .reset :: rest
  · obtain ⟨rest, hh⟩ := hr
    simp only [step, stepOver, fetch, hh] at h
    cases h
    exact ⟨.inr ⟨rest, hh⟩, .inr (.inr (.inr (.inl ⟨rest, hh, rfl⟩)))⟩
  cases ha : s.opActive with
  | some op =>
    simp only [step, stepOver, fetch_active s op ha (fun rest e => hr ⟨rest, e⟩)] at h
    cases h
  | none =>
    refine ⟨.inl rfl, ?_⟩
    cases hh : s.host with
    | nil => simp only [step, stepOver, fetch, whenIdle, ha, hh] at h; cases h; exact .inl ⟨rfl, rfl⟩
    | cons m rest =>
      simp only [step, stepOver, fetch, whenIdle, hh] at h
      cases m with
      | request bytes =>
        cases hd : decodeRequest bytes with
        | error e => simp [ha, hd] at h
        | ok i => simp only [ha, hd] at h; exact .inr (.inl ⟨bytes, rest, i, rfl, hd, h⟩)
      | requestThenReset bytes k =>
        cases hd : decodeRequest bytes with
        | error e => simp [ha, hd] at h
        | ok i =>
          simp only [ha, hd] at h
          obtain ⟨u, hu⟩ := execUnder_next Config.cfg i { s with opActive := none, host := rest }
          rw [← exec_eq_execUnder] at hu
          rw [hu] at h
          cases h
          exact .inr (.inr (.inl ⟨bytes, k, rest, i, u, rfl, hd, hu, rfl⟩))
      | reset => exact absurd ⟨rest, hh⟩ hr
      | readResult =>
        simp only [ha, hostReadResult] at h
        cases hr' : s.result with
        | none => simp [hr'] at h
        | some r => simp only [hr'] at h; cases h; exact .inr (.inr (.inr (.inr (.inl ⟨rest, r, rfl, rfl, rfl⟩))))
      | readOpActive =>
        simp only [ha] at h
        cases h
        exact .inr (.inr (.inr (.inr (.inr (.inl ⟨rest, rfl, rfl⟩)))))
      | useBus use =>
        simp only [ha] at h
        cases h
        exact .inr (.inr (.inr (.inr (.inr (.inr ⟨rest, use, rfl, rfl⟩)))))

/-- A request the HOST presents is run from the state without it. -/
theorem step_request (s : State) (bytes : Bytes) (rest : List HostMove) (i : Instr) (ha : s.opActive = none)
    (hh : s.host = .request bytes :: rest) (hd : decodeRequest bytes = .ok i) :
    step s = exec i { s with host := rest } := by
  simp only [step, stepOver, fetch, whenIdle, ha, hh, hd]

/-- A request that a reset cuts off. -/
theorem step_requestThenReset (s u : State) (bytes : Bytes) (k : Nat) (rest : List HostMove) (i : Instr)
    (ha : s.opActive = none) (hh : s.host = .requestThenReset bytes k :: rest)
    (hd : decodeRequest bytes = .ok i) (hu : exec i { s with host := rest } = .next u) :
    step s = .next (resetDuring { s with host := rest } u k) := by
  simp only [ha] at hu
  simp only [step, stepOver, fetch, whenIdle, ha, hh, hd, hu]

end Sys2Proof.Machine
end

