-- ==== Sys2Proof/Laws/Transport.lean ====
section
/-! SUPPORT. What one attempt of EXECUTE can do, said once, and the unfoldings of the loop of attempts. -/

namespace Sys2Proof.Machine

theorem classify_eq_success_iff (st : DeviceStatus) : classify st = .success ↔ st = .success := by
  cases st <;> decide

theorem classify_eq_terminal_iff (st : DeviceStatus) :
    classify st = .terminal ↔ st = .macMismatch ∨ st = .parseError ∨ st = .execFault ∨ st = .execError := by
  cases st <;> decide

theorem classify_eq_retryable_iff (st : DeviceStatus) :
    classify st = .retryable ↔ st = .nak ∨ st = .commError ∨ st = .awake := by
  cases st <;> decide

/-- R185 to R187: how an attempt with this status ends, and the engine state it leaves. -/
def endOf (st : DeviceStatus) (payload : Bytes) : AttemptEnd × EngState :=
  match classify st with
  | .success => (.done (outcomeOf st) payload, .success)
  | .terminal => (.done (outcomeOf st) [], .fatalFailure)
  | .retryable => (.retry, .retryableFailure)

theorem judgeAnswer_eq (c : Cfg) (s : State) :
    judgeAnswer c s =
      ((endOf (validateFn c s.rxbuf c.rspCap).1 (validateFn c s.rxbuf c.rspCap).2).1,
       { s with engState := (endOf (validateFn c s.rxbuf c.rspCap).1 (validateFn c s.rxbuf c.rspCap).2).2 }) := by
  simp only [judgeAnswer, endOf]
  cases classify (validateFn c s.rxbuf c.rspCap).1 <;> rfl

/-- R182 to R187, said once: an attempt issues the events `Attempt` allows, from the BUS's answers, ends as the
status they stand for says, counts itself, and changes nothing but ATTEMPT, ENG_STATE, RXBUF (filled or not), the trace and the
BUS's coming answers. -/
theorem runAttempt_spec (c : Cfg) (texec : Nat) (s : State) :
    ∃ ev st payload rx filled bus,
      Attempt c s.txbuf texec ev st payload ∧
      runAttempt c texec s = ((endOf st payload).1,
        { s with
          attempt := s.attempt + 1, engState := (endOf st payload).2, rxbuf := rx
          held := { s.held with rx := filled }, bus := bus
          trace := s.trace ++ ev }) := by
  by_cases h : (s.bus.nextWrite s.txbuf.length).1 = s.txbuf.length
  · refine ⟨_, _, _, ((s.bus.nextWrite s.txbuf.length).2.nextRead c.rspCap).1, true,
      ((s.bus.nextWrite s.txbuf.length).2.nextRead c.rspCap).2,
      Attempt.complete _ (BusAnswers.nextRead_length c.rspCap (s.bus.nextWrite s.txbuf.length).2), ?_⟩
    simp only [runAttempt, busWrite, recordEvent, h, ne_eq, not_true_eq_false, if_false, waitAndRead, busRead,
      fillRx, timerWait, judgeAnswer_eq, List.append_assoc, List.cons_append, List.nil_append]
  · refine ⟨_, _, _, s.rxbuf, s.held.rx, (s.bus.nextWrite s.txbuf.length).2,
      Attempt.shortWrite _ (Nat.lt_of_le_of_ne (s.bus.nextWrite_le _) h), ?_⟩
    simp only [runAttempt, busWrite, recordEvent, ne_eq, h, not_false_eq_true, if_true]
    rfl

/-- One attempt when the BUS takes the whole frame and both answers are scripted. -/
theorem runAttempt_scripted (c : Cfg) (texec n : Nat) (r : Bytes) (ws : List Nat) (rs : List Bytes) (s : State)
    (hw : s.bus.writes = n :: ws) (hn : s.txbuf.length ≤ n) (hr : s.bus.reads = r :: rs)
    (hlen : r.length ≤ c.rspCap) :
    runAttempt c texec s =
      ((endOf (validateFn c r c.rspCap).1 (validateFn c r c.rspCap).2).1,
       { s with
          attempt := s.attempt + 1
          engState := (endOf (validateFn c r c.rspCap).1 (validateFn c r c.rspCap).2).2
          rxbuf := r
          held := { s.held with rx := true }
          bus := { s.bus with writes := ws, reads := rs }
          trace := s.trace ++ [.write s.txbuf s.txbuf.length, .wait texec, .read c.rspCap r] }) := by
  have e1 : s.bus.nextWrite s.txbuf.length = (s.txbuf.length, { s.bus with writes := ws }) := by
    rw [BusAnswers.nextWrite_cons _ n ws _ hw, Nat.min_eq_right hn]
  have e2 : BusAnswers.nextRead c.rspCap { s.bus with writes := ws } =
      (r, { s.bus with writes := ws, reads := rs }) := by
    rw [BusAnswers.nextRead_cons c.rspCap r rs { s.bus with writes := ws } hr, List.take_of_length_le hlen]
  simp only [runAttempt, busWrite, e1, recordEvent, ne_eq, not_true_eq_false, if_false, waitAndRead, busRead,
    fillRx, timerWait, e2, judgeAnswer_eq, List.append_assoc, List.cons_append, List.nil_append]

/-- One attempt when the BUS takes less than the frame, by its script. -/
theorem runAttempt_short (c : Cfg) (texec n : Nat) (ws : List Nat) (s : State) (hw : s.bus.writes = n :: ws)
    (hn : n < s.txbuf.length) :
    runAttempt c texec s = (.retry,
      { s with
        attempt := s.attempt + 1, engState := .retryableFailure
        bus := { s.bus with writes := ws }
        trace := s.trace ++ [.write s.txbuf n] }) := by
  have e1 : s.bus.nextWrite s.txbuf.length = (n, { s.bus with writes := ws }) := by
    rw [BusAnswers.nextWrite_cons _ n ws _ hw, Nat.min_eq_left (by omega)]
  simp only [runAttempt, busWrite, e1, recordEvent]
  rw [if_pos (by omega)]

/-- One attempt that the BUS's scripts make end in a retryable class, by a short write or by its answer. -/
theorem runAttempt_retried (c : Cfg) (texec : Nat) (a : BusAttempt) (ws : List Nat) (rs : List Bytes) (s : State)
    (hw : s.bus.writes = a.count :: ws) (hr : s.bus.reads = a.answers ++ rs) (ha : a.Retried c s.txbuf.length) :
    ∃ rx filled, runAttempt c texec s = (.retry,
      { s with
        attempt := s.attempt + 1, engState := .retryableFailure, rxbuf := rx
        held := { s.held with rx := filled }
        bus := { s.bus with writes := ws, reads := rs }
        trace := s.trace ++ a.events c s.txbuf texec }) := by
  cases a with
  | short n =>
    refine ⟨s.rxbuf, s.held.rx, ?_⟩
    rw [runAttempt_short c texec n ws s hw ha]
    simp only [BusAttempt.answers, List.nil_append] at hr
    rw [← hr]
    rfl
  | whole n r =>
    obtain ⟨hn, hlen, hst⟩ := ha
    refine ⟨r, true, ?_⟩
    rw [runAttempt_scripted c texec n r ws rs s hw hn hr hlen]
    simp only [endOf, (classify_eq_retryable_iff _).2 hst]
    rfl

theorem attemptLoop_done (c : Cfg) (texec fuel : Nat) (s s' : State) (outcome : LibOutcome) (payload : Bytes)
    (h : runAttempt c texec s = (.done outcome payload, s')) :
    attemptLoop c texec (fuel + 1) s = executeReturn outcome payload s' := by
  simp only [attemptLoop, h]

theorem attemptLoop_exhausted (c : Cfg) (texec fuel : Nat) (s s' : State)
    (h : runAttempt c texec s = (.retry, s')) (hk : c.maxAttempts ≤ s'.attempt) :
    attemptLoop c texec (fuel + 1) s = executeExhausted s' := by
  simp only [attemptLoop, h]
  rw [if_pos hk]

theorem attemptLoop_again (c : Cfg) (texec fuel : Nat) (s s' : State)
    (h : runAttempt c texec s = (.retry, s')) (hk : s'.attempt < c.maxAttempts) :
    attemptLoop c texec (fuel + 1) s = attemptLoop c texec fuel (rewake s') := by
  simp only [attemptLoop, h]
  rw [if_neg (by omega)]

/-- An operation's last attempt, or the only one: what the loop returns with once an attempt is terminal. -/
theorem attemptLoop_of_done (c : Cfg) (texec fuel : Nat) (s : State) (ev : List Event) (st : DeviceStatus)
    (payload rx : Bytes) (filled : Bool) (bus : BusAnswers) (hst : classify st ≠ .retryable)
    (he : runAttempt c texec s = ((endOf st payload).1, { s with
      attempt := s.attempt + 1, engState := (endOf st payload).2, rxbuf := rx
      held := { s.held with rx := filled }, bus := bus
      trace := s.trace ++ ev })) :
    attemptLoop c texec (fuel + 1) s = { s with
      opActive := none, engState := if st = .success then .success else .fatalFailure
      attempt := s.attempt + 1, txbuf := [], rxbuf := [], held := { s.held with tx := false, rx := false }
      bus := bus, trace := s.trace ++ ev
      result := some { Result.blank .execute with
        outcome := outcomeOf st, payload := if st = .success then payload else [], attempts := s.attempt + 1 } } := by
  cases st <;> first
    | exact absurd rfl hst
    | rw [attemptLoop_done c texec fuel s _ _ _ he]
      simp [executeReturn, finish, releaseRx, releaseTx, endOf, classify, outcomeOf]

/-- R180 to R191, said once: from a state with `fuel` attempts left of `MAX_ATTEMPTS`, the loop issues the events
of a sequence of attempts, returns its outcome and payload with the attempts counted, releases both frame buffers,
and changes nothing else. -/
theorem attemptLoop_spec (c : Cfg) (texec : Nat) : ∀ (fuel : Nat) (s : State),
    s.attempt + (fuel + 1) = c.maxAttempts →
    ∃ k events outcome payload, Attempts c s.txbuf texec (fuel + 1) k events outcome payload ∧
      ∃ bus, attemptLoop c texec (fuel + 1) s = { s with
        opActive := none, engState := if outcome = .success then .success else .fatalFailure
        attempt := s.attempt + k, txbuf := [], rxbuf := [], held := { s.held with tx := false, rx := false }
        bus := bus, trace := s.trace ++ events
        result := some { Result.blank .execute with
          outcome := outcome, payload := payload, attempts := s.attempt + k } } := by
  intro fuel
  induction fuel with
  | zero =>
    intro s hs
    obtain ⟨ev, st, payload, rx, filled, bus, ha, he⟩ := runAttempt_spec c texec s
    by_cases hr : classify st = .retryable
    · simp only [endOf, hr] at he
      refine ⟨1, ev, .commError, [], .exhausted ev st payload ha ((classify_eq_retryable_iff st).1 hr), bus, ?_⟩
      rw [attemptLoop_exhausted c texec 0 s _ he (by show c.maxAttempts ≤ s.attempt + 1; omega)]
      simp [executeExhausted, executeReturn, finish, releaseRx, releaseTx]
    · have e := attemptLoop_of_done c texec 0 s ev st payload rx filled bus hr he
      by_cases h1 : st = .success
      · subst h1; exact ⟨1, ev, .success, payload, .success 0 ev payload ha, bus, by simpa [outcomeOf] using e⟩
      · have ht := (classify_eq_terminal_iff st).1 (by cases st <;> simp_all [classify])
        refine ⟨1, ev, outcomeOf st, [], .terminal 0 ev st payload ha ht, bus, ?_⟩
        rw [e]
        rcases ht with rfl | rfl | rfl | rfl <;> rfl
  | succ fuel ih =>
    intro s hs
    obtain ⟨ev, st, payload, rx, filled, bus, ha, he⟩ := runAttempt_spec c texec s
    by_cases hr : classify st = .retryable
    · simp only [endOf, hr] at he
      obtain ⟨k, evs, outcome, payload', hA, bus', hL⟩ := ih (rewake { s with
          attempt := s.attempt + 1, engState := .retryableFailure, rxbuf := rx
          held := { s.held with rx := filled }, bus := bus
          trace := s.trace ++ ev }) (by show s.attempt + 1 + (fuel + 1) = c.maxAttempts; omega)
      refine ⟨k + 1, _, outcome, payload', .again fuel k ev evs st payload payload' bus.nextWake.1 outcome ha
        ((classify_eq_retryable_iff st).1 hr) hA, bus', ?_⟩
      rw [attemptLoop_again c texec (fuel + 1) s _ he (by show s.attempt + 1 < c.maxAttempts; omega), hL]
      simp [rewake, busWake, recordEvent, Nat.add_assoc, Nat.add_comm 1 k]
    · have e := attemptLoop_of_done c texec (fuel + 1) s ev st payload rx filled bus hr he
      by_cases h1 : st = .success
      · subst h1; exact ⟨1, ev, .success, payload, .success _ ev payload ha, bus, by simpa [outcomeOf] using e⟩
      · have ht := (classify_eq_terminal_iff st).1 (by cases st <;> simp_all [classify])
        refine ⟨1, ev, outcomeOf st, [], .terminal _ ev st payload ha ht, bus, ?_⟩
        rw [e]
        rcases ht with rfl | rfl | rfl | rfl <;> rfl

/-- R183, R186, R189, said once for scripted attempts: the loop goes on after attempts that end in a retryable class,
fewer than are left, having issued their events, each followed by one wake with its answer, and having used the scripts
they use.  The wakes' answers are the script's where it has enough. -/
theorem attemptLoop_retried (c : Cfg) (texec : Nat) (ws : List Nat) (rs : List Bytes) :
    ∀ (retried : List BusAttempt) (s : State) (fuel : Nat),
      s.bus.writes = retried.map BusAttempt.count ++ ws →
      s.bus.reads = retried.flatMap BusAttempt.answers ++ rs →
      (∀ a ∈ retried, a.Retried c s.txbuf.length) → s.attempt + retried.length < c.maxAttempts →
      ∃ (oks : List Bool) (bus : BusAnswers) (rx : Bytes) (filled : Bool) (eng : EngState),
        oks.length = retried.length ∧ bus.writes = ws ∧ bus.reads = rs ∧
        (∀ script rest, s.bus.wakes = script ++ rest → script.length = retried.length →
          oks = script ∧ bus.wakes = rest ∧ bus.drawn = s.bus.drawn) ∧
        attemptLoop c texec (retried.length + fuel) s = attemptLoop c texec fuel { s with
          attempt := s.attempt + retried.length, engState := eng, rxbuf := rx
          held := { s.held with rx := filled }, bus := bus
          trace := s.trace ++
            (retried.zip oks).flatMap (fun x => x.1.events c s.txbuf texec ++ [.wake x.2]) } := by
  intro retried
  induction retried with
  | nil =>
    intro s fuel hw hr _ _
    refine ⟨[], s.bus, s.rxbuf, s.held.rx, s.engState, rfl, by simpa using hw, by simpa using hr, ?_, by simp⟩
    intro script rest hs hl
    obtain rfl : script = [] := List.eq_nil_of_length_eq_zero hl
    exact ⟨rfl, by simpa using hs, rfl⟩
  | cons a retried ih =>
    intro s fuel hw hr ha hk
    rw [List.length_cons] at hk
    obtain ⟨rx, filled, he⟩ := runAttempt_retried c texec a (retried.map BusAttempt.count ++ ws)
      (retried.flatMap BusAttempt.answers ++ rs) s hw
      (by rw [hr, List.flatMap_cons, List.append_assoc]) (ha a (by simp))
    have hnext := attemptLoop_again c texec (retried.length + fuel) s _ he (by show s.attempt + 1 < _; omega)
    generalize hq : ({ s.bus with
      writes := retried.map BusAttempt.count ++ ws
      reads := retried.flatMap BusAttempt.answers ++ rs } : BusAnswers) = q at hnext
    obtain ⟨oks, bus, rx', filled', eng, hl, h1, h2, h3, hL⟩ := ih (rewake { s with
        attempt := s.attempt + 1, engState := .retryableFailure, rxbuf := rx
        held := { s.held with rx := filled }, bus := q
        trace := s.trace ++ a.events c s.txbuf texec }) fuel
      (by rw [rewake_bus, BusAnswers.nextWake_writes, ← hq]) (by rw [rewake_bus, BusAnswers.nextWake_reads, ← hq])
      (fun b hb => ha b (by simp [hb])) (by rw [rewake_attempt]; show s.attempt + 1 + _ < _; omega)
    refine ⟨q.nextWake.1 :: oks, bus, rx', filled', eng, by rw [List.length_cons, hl, List.length_cons], h1, h2,
      ?_, ?_⟩
    · intro script rest hs hsl
      match script, hsl with
      | ok :: script, hsl =>
        have hn := BusAnswers.nextWake_cons ok (script ++ rest) q (by rw [← hq]; exact hs)
        rw [rewake_bus, hn] at h3
        obtain ⟨e1, e2, e3⟩ := h3 script rest rfl (by simpa using hsl)
        exact ⟨by rw [e1, hn], e2, by rw [e3, ← hq]⟩
    · rw [List.length_cons, Nat.add_right_comm, hnext, hL]
      simp [rewake, busWake, recordEvent, Nat.add_assoc, Nat.add_comm 1]

/-- What a sequence of attempts can end in (R190, R191). -/
theorem Attempts.bounds (c : Cfg) (frame : Bytes) (texec left k : Nat) (events : List Event)
    (outcome : LibOutcome) (payload : Bytes) (h : Attempts c frame texec left k events outcome payload) :
    1 ≤ k ∧ k ≤ left ∧ outcome ≠ .nak ∧ outcome ≠ .awake ∧ outcome ≠ .programmingError ∧
      (outcome ≠ .success → payload = []) := by
  induction h with
  | success => simp
  | terminal left ev st payload h ht => rcases ht with rfl | rfl | rfl | rfl <;> simp [outcomeOf]
  | exhausted => simp
  | again left k ev rest st payload payload' ok outcome h hr hrest ih =>
    exact ⟨by omega, by omega, ih.2.2⟩

end Sys2Proof.Machine
end

