-- ==== Sys2Proof/Machine/Text.lean ====
section
/-! DEFINITION. The textual syntax of a request (spec R104), as a function from requests to text.  Of the forms R104
allows for a byte string, the text uses the list `[b0, b1, ...]`. -/

namespace Sys2Proof.Machine.Text

/-- A hexadecimal digit, of a number below 16. -/
def hexDigit (n : Nat) : Char := ("0123456789ABCDEF".toList).getD n '0'

/-- R104: `<byte>` is `0xHH`. -/
def byte (b : Byte) : List Char := ['0', 'x', hexDigit (b.toNat / 16), hexDigit (b.toNat % 16)]

/-- The texts of a list's elements with `, ` between. -/
def separated : List (List Char) → List Char
  | [] => []
  | [a] => a
  | a :: b :: rest => a ++ [',', ' '] ++ separated (b :: rest)

/-- R104: `<bytes>` in its list form. -/
def bytes (s : Bytes) : List Char := '[' :: separated (s.map byte) ++ [']']

/-- R104: `[<byte>,<byte>]`, without a space. -/
def byte2 (p : Byte2) : List Char := '[' :: byte p.b0 ++ [','] ++ byte p.b1 ++ [']']

/-- R104: `<nat>` is a decimal number. -/
def nat (n : Nat) : List Char := Nat.toDigits 10 n

/-- One operand: a space, its name, `=` and its text. -/
def operand (name : String) (text : List Char) : List Char := ' ' :: name.toList ++ ['='] ++ text

/-- R104: the operands of a Command Descriptor. -/
def descriptor (d : CommandDescriptor) : List Char :=
  operand "op" (byte d.opcode) ++ operand "p1" (byte d.param1) ++ operand "p2" (byte2 d.param2) ++
    operand "payload" (bytes d.payload) ++ operand "t" (nat d.texec)

/-- R104: the text of a request. -/
def request : Instr → List Char
  | .serialize desc => "SERIALIZE".toList ++ descriptor desc
  | .execute desc => "EXECUTE".toList ++ descriptor desc
  | .validate raw cap => "VALIDATE".toList ++ operand "raw" (bytes raw) ++ operand "cap" (nat cap)
  | .crCompute challenge key mode param2 otp8 otp3 sn4 sn23 =>
    "CR_COMPUTE".toList ++ operand "ch" (bytes challenge) ++ operand "key" (bytes key) ++
      operand "mode" (byte mode) ++ operand "p2" (byte2 param2) ++ operand "otp8" (bytes otp8) ++
      operand "otp3" (bytes otp3) ++ operand "sn4" (bytes sn4) ++ operand "sn23" (bytes sn23)
  | .crVerify challenge expected key slot =>
    "CR_VERIFY".toList ++ operand "ch" (bytes challenge) ++ operand "exp" (bytes expected) ++
      operand "key" (bytes key) ++ operand "slot" (nat slot)

end Sys2Proof.Machine.Text
end

