-- ==== Sys2Proof/Tests/Slice0.lean ====
section
/-! SUPPORT. Tests, and a witness for the hypotheses of every statement.  Expected bytes come from the spec's
vectors (95_test_vectors.md, named at each test), which are of the REF profile; the witnesses are of the machine's
own configuration, of which only R10's constraints are known. -/

namespace Sys2Proof.Tests

open Sys2Proof.Machine

/-! Well-formed operands (R103): `cap` and `slot` are at most 255. -/

theorem test_wellFormed_refuses_cap_256 : (Instr.validate [] 256).wellFormed = false := by decide
theorem test_wellFormed_refuses_slot_256 : (Instr.crVerify [] [] [] 256).wellFormed = false := by decide
theorem test_wellFormed_admits_255 :
    (Instr.validate [] 255).wellFormed = true ∧ (Instr.crVerify [] [] [] 255).wellFormed = true := by decide

/-! Decoding, each word written out from R101 and R103 in the transport form of log entry 3. -/

/-- SERIALIZE op=0x1B p1=0x07 p2=[0x03,0x09] payload=[0xAA,0xBB] t=260. -/
theorem test_decode_serialize :
    decodeRequest [0x01, 0x1B, 0x07, 0x03, 0x09, 0x02, 0xAA, 0xBB, 0xFF, 0x05] =
      .ok (.serialize ⟨0x1B, 0x07, ⟨0x03, 0x09⟩, [0xAA, 0xBB], 260⟩) := by decide

/-- EXECUTE op=0x08 p1=0x00 p2=[0x00,0x01] payload=[] t=255. -/
theorem test_decode_execute :
    decodeRequest [0x02, 0x08, 0x00, 0x00, 0x01, 0x00, 0xFF, 0x00] =
      .ok (.execute ⟨0x08, 0x00, ⟨0x00, 0x01⟩, [], 255⟩) := by decide

/-- VALIDATE raw=[0x04,0x00,0x03,0x40] cap=255. -/
theorem test_decode_validate :
    decodeRequest [0x03, 0x04, 0x04, 0x00, 0x03, 0x40, 0xFF] = .ok (.validate [0x04, 0x00, 0x03, 0x40] 255) := by
  decide

/-- CR_COMPUTE with operands of different lengths, each its own bytes. -/
theorem test_decode_crCompute :
    decodeRequest [0x04, 0x01, 0xC0, 0x02, 0x10, 0x11, 0x40, 0x05, 0x06, 0x01, 0x80, 0x00, 0x01, 0x41, 0x01, 0x23] =
      .ok (.crCompute [0xC0] [0x10, 0x11] 0x40 ⟨0x05, 0x06⟩ [0x80] [] [0x41] [0x23]) := by decide

/-- CR_VERIFY ch=[0xC0] exp=[0xE0,0xE1] key=[0x10] slot=15. -/
theorem test_decode_crVerify :
    decodeRequest [0x05, 0x01, 0xC0, 0x02, 0xE0, 0xE1, 0x01, 0x10, 0x0F] =
      .ok (.crVerify [0xC0] [0xE0, 0xE1] [0x10] 15) := by decide

theorem test_decode_truncated_rejected : decodeRequest [0x03, 0x02, 0x04] = .error .truncated := by decide
theorem test_decode_trailing_rejected : decodeRequest [0x03, 0x00, 0x04, 0x00] = .error .trailing := by decide
theorem test_decode_empty_rejected : decodeRequest [] = .error .noOpsel := by decide
theorem test_opsel_neighbours_rejected :
    selectOp 0x00 = none ∧ selectOp 0x06 = none ∧ selectOp 0xFF = none := by decide

/-! Operations, under the REF profile. -/

/-- The record of an operation started in the state after reset. -/
def resultOf (s : State) : Option Result := s.result

/-- S4. -/
theorem test_serialize_S4 :
    resultOf (serialize Ref.cfg ⟨0x1B, 0x00, ⟨0x00, 0x00⟩, [0x01], 0⟩ State.reset) =
      some { Result.blank .serialize with frame := [0x08, 0x1B, 0x00, 0x00, 0x00, 0x01, 0x51, 0x25] } := by
  decide +kernel

/-- S9: one byte more than fits. -/
theorem test_serialize_S9 :
    resultOf (serialize Ref.cfg ⟨0x00, 0x00, ⟨0x00, 0x00⟩, zeros 249, 0⟩ State.reset) =
      some { Result.blank .serialize with outcome := .programmingError, reason := some .oversize } := by
  decide +kernel

/-- V4, V13, V16, V17 and V28: outcome and payload. -/
theorem test_validate_outcomes :
    validateFn Ref.cfg [0x04, 0x0F, 0x23, 0x42] 255 = (.execError, []) ∧
    validateFn Ref.cfg [0x03, 0x80, 0x02] 255 = (.commError, []) ∧
    validateFn Ref.cfg [0x04, 0x00, 0x40, 0x03] 255 = (.commError, []) ∧
    validateFn Ref.cfg [0x04, 0x00, 0x03, 0x40, 0x99, 0x98] 255 = (.success, []) ∧
    validateFn Ref.cfg [0x05, 0xAA, 0x00, 0x85, 0x76] 255 = (.success, [0xAA, 0x00]) := by decide +kernel

/-- V22 and V23: the capacity is inclusive. -/
theorem test_validate_capacity :
    validateFn Ref.cfg [0x04, 0x00, 0x03, 0x40] 4 = (.success, []) ∧
    resultOf (validate Ref.cfg [0x04, 0x00, 0x03, 0x40] 3 State.reset) =
      some { Result.blank .validate with outcome := .commError } := by decide +kernel

/-- A state whose BUS answers these. -/
def scripted (wakes : List Bool) (writes : List Nat) (reads : List Bytes) : State :=
  { State.reset with bus := ⟨wakes, writes, reads, 0⟩ }

/-- The descriptor of the spec's EXECUTE vectors. -/
def command : CommandDescriptor := ⟨0x08, 0x00, ⟨0x00, 0x00⟩, [], 5⟩

/-- The frame of `command` under REF (S1). -/
def commandBytes : Bytes := [0x07, 0x08, 0x00, 0x00, 0x00, 0x05, 0xED]

/-- E6: a short write, an empty read, a wrong checksum, and then a terminal status on the last attempt. -/
theorem test_execute_E6 :
    let t := execute Ref.cfg command
      (scripted [true, true, true] [3, 7, 7, 7] [[], [0x04, 0x00, 0x03, 0x41], [0x04, 0x01, 0x00, 0xC3]])
    t.result = some { Result.blank .execute with outcome := .macMismatch, attempts := 4 } ∧
    t.engState = .fatalFailure ∧
    t.trace =
      [.write commandBytes 3, .wake true,
       .write commandBytes 7, .wait 5, .read 255 [], .wake true,
       .write commandBytes 7, .wait 5, .read 255 [0x04, 0x00, 0x03, 0x41], .wake true,
       .write commandBytes 7, .wait 5, .read 255 [0x04, 0x01, 0x00, 0xC3]] := by decide +kernel

/-- E8: a wake that fails is not tested; the device's own COMM_ERROR is retried. -/
theorem test_execute_E8 :
    let t := execute Ref.cfg command
      (scripted [false] [7, 7] [[0x04, 0xFF, 0x01, 0x42], [0x04, 0x00, 0x03, 0x40]])
    t.result = some { Result.blank .execute with attempts := 2 } ∧ t.engState = .success ∧
    t.trace =
      [.write commandBytes 7, .wait 5, .read 255 [0x04, 0xFF, 0x01, 0x42], .wake false,
       .write commandBytes 7, .wait 5, .read 255 [0x04, 0x00, 0x03, 0x40]] := by decide +kernel

/-- The digest of vector H4. -/
def digestH4 : Bytes :=
  [0x03, 0x3D, 0x27, 0xCA, 0x89, 0x2F, 0x80, 0x10, 0x7E, 0x68, 0x31, 0x58, 0x42, 0x38, 0x18, 0x15,
   0x5A, 0x33, 0xD6, 0x8E, 0xCB, 0x60, 0x9B, 0x04, 0x64, 0xF9, 0x0F, 0xA1, 0xE7, 0x0E, 0x01, 0x43]

/-- The digest of vector H2. -/
def digestH2 : Bytes :=
  [0xE8, 0x9D, 0x67, 0x47, 0xB6, 0x40, 0xAB, 0x7C, 0x76, 0x87, 0x97, 0x6A, 0xE6, 0x36, 0x90, 0x90,
   0xAC, 0x3A, 0x31, 0xBC, 0x1F, 0x2D, 0xAD, 0x6F, 0xBE, 0xA3, 0x0C, 0xEE, 0xC3, 0x35, 0x3A, 0xB3]

/-- The vectors' challenge C and key K. -/
def challengeC : Bytes := (List.range 32).map (BitVec.ofNat 8)
def keyK : Bytes := (List.range 32).map (fun i => BitVec.ofNat 8 (0x20 + i))

/-- H4: every operand field different. -/
theorem test_crCompute_H4 :
    resultOf (crCompute Ref.cfg challengeC keyK 0x40 ⟨0x01, 0x00⟩ [0x01, 0x02, 0x03, 0x04, 0x05, 0x06, 0x07, 0x08]
      [0x09, 0x0A, 0x0B] [0x12, 0x34, 0x56, 0x78] [0x9A, 0xBC] State.reset) =
      some { Result.blank .crCompute with digest := digestH4 } := by decide +kernel

/-- H7: the first of two wrong lengths. -/
theorem test_crCompute_H7 :
    resultOf (crCompute Ref.cfg challengeC keyK 0x00 ⟨0x00, 0x00⟩ (zeros 7) (zeros 3) (zeros 4) (zeros 3)
      State.reset) =
      some { Result.blank .crCompute with outcome := .programmingError, reason := some .badLenOtp8 } := by
  decide +kernel

/-- Y1 and Y7: the digest matches; with its last bit flipped it does not, after the same 32 steps. -/
theorem test_crVerify_Y1_Y7 :
    let t := crVerify Ref.cfg challengeC digestH2 keyK 0 State.reset
    let u := crVerify Ref.cfg challengeC (digestH2.set 31 0xB2) keyK 0 State.reset
    t.result = some { Result.blank .crVerify with matched := some true } ∧
    u.result = some { Result.blank .crVerify with matched := some false } ∧
    t.cmpLog.length = 33 ∧ u.cmpLog = t.cmpLog := by decide +kernel

/-- Y5: the slot is checked first. -/
theorem test_crVerify_Y5 :
    resultOf (crVerify Ref.cfg (zeros 31) digestH2 keyK 255 State.reset) =
      some { Result.blank .crVerify with outcome := .programmingError, reason := some .badSlot } := by
  decide +kernel

/-- R124 on S4's frame, and on it with the wrong length byte. -/
theorem test_parseCommandFrame :
    parseCommandFrame Ref.cfg [0x08, 0x1B, 0x00, 0x00, 0x00, 0x01, 0x51, 0x25] =
      some ⟨0x1B, 0x00, ⟨0x00, 0x00⟩, [0x01]⟩ ∧
    parseCommandFrame Ref.cfg [0x07, 0x1B, 0x00, 0x00, 0x00, 0x01, 0x51, 0x25] = none := by decide +kernel

/-- X1: a reserved OPSEL is refused by the machine's step. -/
theorem test_step_reserved_opsel :
    step (State.reset.withFetchWord 8 0x00) = .refused (.reservedOpsel 0x00) := rfl

/-- The codes of R33 and R41, the mapping of R123, and the classes of R186 and R187. -/
theorem test_codes_and_classes :
    EngState.fatalFailure.code = 5 ∧ LibOutcome.awake.code = 5 ∧ LibOutcome.programmingError.code = 8 ∧
    outcomeOf .execFault = .execFault ∧ classify .execFault = .terminal ∧ classify .awake = .retryable := by decide

/-- R104: the text of the examples of R220 and R180. -/
theorem test_text_of_requests :
    Text.request (.validate [0x04, 0x00, 0x03, 0x40] 255) =
      "VALIDATE raw=[0x04, 0x00, 0x03, 0x40] cap=255".toList ∧
    Text.request (.execute ⟨0x08, 0x00, ⟨0x00, 0x00⟩, [], 5⟩) =
      "EXECUTE op=0x08 p1=0x00 p2=[0x00,0x00] payload=[] t=5".toList := by decide +kernel

/-- A read of a buffer between operations is a fault (R310). -/
theorem test_readBuffer_after_reset : readBuffer .msg State.reset = .error .releasedBuffer := rfl

/-- R71, R310: with an operation active, a buffer it has not filled, and one it has released, is a fault to read; a
buffer filled with the empty string is not. -/
theorem test_readBuffer_while_active :
    readBuffer .msg (start .execute State.reset) = .error .releasedBuffer ∧
    readBuffer .dig (releaseMsgDig (fillDig [0x01] (start .crVerify State.reset))) = .error .releasedBuffer ∧
    readBuffer .rx (fillRx [] (start .execute State.reset)) = .ok [] := ⟨rfl, rfl, rfl⟩

/-! Witnesses: for each statement with hypotheses, operands and a state that meet all of them. -/

/-- The state after reset with these moves of the HOST to come. -/
def hosted (moves : List HostMove) : State := { State.reset with host := moves }

/-- A request of EXECUTE and one of SERIALIZE, as bytes. -/
def executeBytes : Bytes := [0x02, 0x08, 0x00, 0x00, 0x00, 0x00, 0x05]
def serializeBytes : Bytes := [0x01, 0x08, 0x00, 0x00, 0x00, 0x00, 0x05]

theorem witness_ResetDuringOperationKeepsIssuedEvents :
    ∃ u, (hosted [.requestThenReset executeBytes 1]).opActive = none ∧
      (hosted [.requestThenReset executeBytes 1]).host = .requestThenReset executeBytes 1 :: [] ∧
      decodeRequest executeBytes = .ok (.execute command) ∧
      exec (.execute command) { hosted [.requestThenReset executeBytes 1] with host := [] } = .next u :=
  ⟨_, rfl, rfl, rfl, rfl⟩

/-- ResetDuringOperationKeepsIssuedEvents: an operation that issues no more events than the reset waits for. -/
theorem witness_ResetDuringOperationKeepsIssuedEvents_all :
    ∃ u, (hosted [.requestThenReset serializeBytes 0]).opActive = none ∧
      (hosted [.requestThenReset serializeBytes 0]).host = .requestThenReset serializeBytes 0 :: [] ∧
      decodeRequest serializeBytes = .ok (.serialize command) ∧
      exec (.serialize command) { hosted [.requestThenReset serializeBytes 0] with host := [] } = .next u ∧
      u.trace = (hosted [.requestThenReset serializeBytes 0]).trace ++ [] := by
  refine ⟨_, rfl, rfl, rfl, rfl, ?_⟩
  rw [serialize_of_fits Config.cfg command _ Config.validCfg.maxFrame_ge]
  rfl

theorem witness_NoMoveNothingHappens : State.reset.opActive = none ∧ State.reset.host = [] := ⟨rfl, rfl⟩

theorem witness_HostReadOfResult_none :
    (hosted [.readResult]).opActive = none ∧ (hosted [.readResult]).host = .readResult :: [] ∧
      (hosted [.readResult]).result = none := ⟨rfl, rfl, rfl⟩

theorem witness_HostReadOfResult_some :
    ({ hosted [.readResult] with result := some (Result.blank .validate) } : State).opActive = none ∧
      ({ hosted [.readResult] with result := some (Result.blank .validate) } : State).host = .readResult :: [] ∧
      ({ hosted [.readResult] with result := some (Result.blank .validate) } : State).result =
        some (Result.blank .validate) := ⟨rfl, rfl, rfl⟩

theorem witness_HostReadOfOpActive :
    (hosted [.readOpActive]).opActive = none ∧ (hosted [.readOpActive]).host = .readOpActive :: [] := ⟨rfl, rfl⟩

theorem witness_ReservedOpselRefused : ∀ b ∈ ([0x00, 0x06, 0xFF] : Bytes), (b = 0x00 ∨ 0x06 ≤ b.toNat) ∧
    (hosted [.request [b]]).opActive = none ∧ (hosted [.request [b]]).host = .request (b :: []) :: [] := by
  intro b hb; exact ⟨by revert b; decide, rfl, rfl⟩

/-- A state in the middle of an EXECUTE. -/
def amidExecute (moves : List HostMove) : State :=
  { hosted moves with
    opActive := some .execute, engState := .sent, attempt := 1, txbuf := [0x07]
    held := { Held.none with tx := true } }

theorem witness_ResetInAnyState : (amidExecute [.reset]).host = .reset :: [] := rfl

theorem witness_NothingAdmittedWhileActive :
    (amidExecute [.request executeBytes]).opActive = some .execute ∧
      ∀ rest, (amidExecute [.request executeBytes]).host ≠ .reset :: rest :=
  ⟨rfl, fun rest h => by cases h⟩

theorem witness_StepRunsDecodedRequest :
    (hosted [.request executeBytes]).opActive = none ∧
      (hosted [.request executeBytes]).host = .request executeBytes :: [] ∧
      decodeRequest executeBytes = .ok (.execute command) := ⟨rfl, rfl, rfl⟩

theorem witness_HostBusUseLeavesBlock :
    (hosted [.useBus .wake]).opActive = none ∧ (hosted [.useBus .wake]).host = .useBus .wake :: [] := ⟨rfl, rfl⟩

theorem witness_DecodeOfEncode :
    (Instr.validate [0x04] 255).wellFormed = true ∧ (Instr.crVerify [] [] [] 255).wellFormed = true ∧
      (Instr.serialize command).wellFormed = true := by decide

theorem witness_EncodeOfDecode : decode [0x03, 0x01, 0x04, 0xFF, 0x77] = .ok (.validate [0x04] 255, [0x77]) := by
  decide

/-- A payload of `n` zero bytes in the descriptor of the vectors. -/
def carrying (n : Nat) : CommandDescriptor := { command with payload := zeros n }

/-- SerializeBuildsFrame, FrameLengthByteIsExact, SerializeRoundTrip, ExecuteRunsAttempts, ExecuteReturns: the
empty payload and the largest one. -/
theorem witness_payload_fits :
    (carrying 0).payload.length + 7 ≤ Config.cfg.maxFrame ∧
      (carrying (Config.cfg.maxFrame - 7)).payload.length + 7 = Config.cfg.maxFrame := by
  have h : 7 ≤ Config.cfg.maxFrame := Config.validCfg.maxFrame_ge
  simp only [carrying, zeros, List.length_replicate]
  omega

/-- SerializeOversize, ExecuteOversize: one byte more than fits. -/
theorem witness_payload_oversize :
    (carrying (Config.cfg.maxFrame - 6)).payload.length + 7 = Config.cfg.maxFrame + 1 := by
  have h : 7 ≤ Config.cfg.maxFrame := Config.validCfg.maxFrame_ge
  simp only [carrying, zeros, List.length_replicate]
  omega

theorem witness_ExecuteTraceCounts :
    ∃ t, (carrying 0).payload.length + 7 ≤ Config.cfg.maxFrame ∧ exec (.execute (carrying 0)) State.reset = .next t :=
  ⟨_, witness_payload_fits.1, rfl⟩

/-- The frame of the vectors' command under the machine's configuration, and the record that carries it. -/
def frameRecord : Result := { Result.blank .serialize with frame := commandFrame Config.cfg command }

theorem serialize_command : ∃ t, exec (.serialize command) State.reset = .next t ∧ t.result = some frameRecord :=
  ⟨_, rfl, by rw [serialize_of_fits Config.cfg command _ Config.validCfg.maxFrame_ge]; rfl⟩

/-- AlteredFrameIsCommError: the first and the last offset of the first clause, and each case of the second at its
boundary. -/
theorem witness_AlteredFrameIsCommError :
    ∃ t, exec (.serialize command) State.reset = .next t ∧ t.result = some frameRecord ∧
      frameRecord.outcome = .success ∧
      (1 ≤ 1 ∧ 1 + 3 ≤ frameRecord.frame.length ∧ frameRecord.frame[1]? ≠ some 0x09) ∧
      (1 ≤ 4 ∧ 4 + 3 ≤ frameRecord.frame.length ∧ frameRecord.frame[4]? ≠ some 0x01) ∧
      frameRecord.frame.length < (0x08 : Byte).toNat ∧ 6 < (0x07 : Byte).toNat ∧ (0x03 : Byte).toNat < 4 := by
  obtain ⟨t, ht, hr⟩ := serialize_command
  exact ⟨t, ht, hr, rfl, ⟨by decide, by decide, by decide⟩, ⟨by decide, by decide, by decide⟩, by decide, by decide,
    by decide⟩

theorem witness_SerializeDependsOnFrameFieldsAlone :
    command.opcode = ({ command with texec := 99 } : CommandDescriptor).opcode ∧
      command.param1 = ({ command with texec := 99 } : CommandDescriptor).param1 ∧
      command.param2 = ({ command with texec := 99 } : CommandDescriptor).param2 ∧
      command.payload = ({ command with texec := 99 } : CommandDescriptor).payload ∧
      command ≠ { command with texec := 99 } := by decide

/-- The checksum of [0x04, 0x00] is not that of [0x04, 0x01] (R117 (c)). -/
theorem checksum_differs :
    (Config.cfg.checksum [0x04, 0x00]).toBytes ≠ (Config.cfg.checksum [0x04, 0x01]).toBytes := fun h =>
  Config.validCfg.detects [0x04] [] 0x00 0x01 (by decide) (toBytes_inj _ _ h)

/-- ValidateRejects: every case, the numbers at their boundaries (raw = [0x03], cap = 3 with length 4, three of
four bytes, and the checksum of another body). -/
theorem witness_ValidateRejects :
    (([] : Bytes) = []) ∧ (0x03 : Byte).toNat < 4 ∧ 3 < (0x04 : Byte).toNat ∧
      ([0x04, 0x00, 0x03] : Bytes).length < (0x04 : Byte).toNat ∧
      (let raw : Bytes := 0x04 :: 0x01 :: (Config.cfg.checksum [0x04, 0x00]).toBytes
       (raw.take (0x04 : Byte).toNat).drop ((0x04 : Byte).toNat - 2) ≠
         (Config.cfg.checksum (raw.take ((0x04 : Byte).toNat - 2))).toBytes) :=
  ⟨rfl, by decide, by decide, by decide, checksum_differs⟩

/-- ValidateReadsFrame: the shortest body with the smallest capacity, and the longest. -/
theorem witness_ValidateReadsFrame :
    (1 ≤ ([0xAA] : Bytes).length ∧ ([0xAA] : Bytes).length + 3 ≤ 4 ∧ ([0xAA] : Bytes).length + 3 ≤ 255) ∧
      (1 ≤ (zeros 252).length ∧ (zeros 252).length + 3 ≤ 255 ∧ (zeros 252).length + 3 ≤ 255) := by
  have h : (zeros 252).length = 252 := List.length_replicate
  rw [h]
  decide

/-- What a one-byte status body validates to, for any capacity that takes its frame. -/
theorem status_frame (b : Byte) (st : DeviceStatus) (cap : Nat) (hb : Config.cfg.statusMap b = some st)
    (hc : 4 ≤ cap) : validateFn Config.cfg (responseFrame Config.cfg [b]) cap = (st, []) := by
  have h := validateFn_responseFrame Config.cfg [b] [] cap (by simp) hc (by simp)
  rw [List.append_nil] at h
  rw [h, interpretBody, hb]

/-- The frames that carry the statuses SUCCESS and NAK. -/
def okFrame : Bytes := responseFrame Config.cfg [0x00]
def nakFrame : Bytes := responseFrame Config.cfg [0xAA]

theorem validate_okFrame : validateFn Config.cfg okFrame Config.cfg.rspCap = (.success, []) :=
  status_frame _ _ _ Config.validCfg.status_zero Config.validCfg.rspCap_ge

theorem validate_nakFrame : validateFn Config.cfg nakFrame Config.cfg.rspCap = (.nak, []) :=
  status_frame _ _ _ Config.validCfg.status_nak Config.validCfg.rspCap_ge

theorem witness_ValidateAcceptsOnlyFrames :
    ∃ t r, exec (.validate okFrame 4) State.reset = .next t ∧ t.result = some r ∧ r.outcome ≠ .commError := by
  refine ⟨_, _, rfl, by rw [validate_eq], ?_⟩
  rw [show validateFn Config.cfg okFrame 4 = (.success, []) from
    status_frame _ _ _ Config.validCfg.status_zero (Nat.le_refl 4)]
  decide

theorem witness_ValidateDependsOnExaminedBytes :
    examined [0x02, 0x11, 0x22] = examined [0x02, 0x11, 0x33] := by decide

theorem witness_SerializedFrameValidates :
    ∃ t, exec (.serialize command) State.reset = .next t ∧ t.result = some frameRecord ∧
      frameRecord.outcome = .success ∧ frameRecord.frame.length ≤ 7 := by
  obtain ⟨t, ht, hr⟩ := serialize_command
  exact ⟨t, ht, hr, rfl, by decide⟩

theorem witness_SourceStatusBytes : 4 ≤ 4 := by decide

/-- A state whose BUS takes every frame of seven bytes and gives these answers. -/
def answering (reads : List Bytes) : State := scripted [] (List.replicate Config.cfg.maxAttempts 7) reads

theorem writes_cons : ∃ n, (answering []).bus.writes = 7 :: List.replicate n 7 := by
  have h : 1 ≤ Config.cfg.maxAttempts := Config.validCfg.maxAttempts_pos
  refine ⟨Config.cfg.maxAttempts - 1, ?_⟩
  show List.replicate Config.cfg.maxAttempts 7 = _
  rw [← List.replicate_succ, Nat.sub_add_cancel h]

theorem frame_of_four_le (body : Byte) : (responseFrame Config.cfg [body]).length ≤ Config.cfg.rspCap := by
  rw [responseFrame_length]; exact Config.validCfg.rspCap_ge

theorem witness_ExecuteFirstAnswerDecides :
    ∃ ws, command.payload.length + 7 ≤ Config.cfg.maxFrame ∧ (answering [okFrame]).bus.writes = 7 :: ws ∧
      command.payload.length + 7 ≤ 7 ∧ (answering [okFrame]).bus.reads = okFrame :: [] ∧
      okFrame.length ≤ Config.cfg.rspCap ∧
      validateFn Config.cfg okFrame Config.cfg.rspCap = (.success, []) := by
  obtain ⟨n, hn⟩ := writes_cons
  exact ⟨_, Config.validCfg.maxFrame_ge, hn, by decide, rfl, frame_of_four_le _, validate_okFrame⟩

/-- The terminal statuses: their byte is the configuration's (R10 fixes none), so a byte it gives to one is the
hypothesis; the REF profile gives 0x0F to EXEC_ERROR. -/
theorem witness_ExecuteFirstAnswerDecides_terminal (b : Byte) (st : DeviceStatus)
    (hb : Config.cfg.statusMap b = some st) :
    (answering [responseFrame Config.cfg [b]]).bus.reads = responseFrame Config.cfg [b] :: [] ∧
      (responseFrame Config.cfg [b]).length ≤ Config.cfg.rspCap ∧
      validateFn Config.cfg (responseFrame Config.cfg [b]) Config.cfg.rspCap = (st, []) :=
  ⟨rfl, frame_of_four_le b, status_frame b st _ hb Config.validCfg.rspCap_ge⟩

/-- The attempts the witnesses repeat, a short write (by one byte) and a NAK, are ones that EXECUTE retries. -/
theorem retried_attempts (a : BusAttempt) (ha : a = .short 6 ∨ a = .whole 7 nakFrame) :
    a.Retried Config.cfg (command.payload.length + 7) := by
  rcases ha with rfl | rfl
  · exact (by decide : 6 < command.payload.length + 7)
  · exact ⟨by decide, frame_of_four_le _, .inl (by rw [validate_nakFrame])⟩

/-- A BUS that answers so: these attempts, then `ws` and `rs`, and `true` to each wake between them. -/
def retrying (retried : List BusAttempt) (ws : List Nat) (rs : List Bytes) : State :=
  scripted (List.replicate retried.length true) (retried.map BusAttempt.count ++ ws)
    (retried.flatMap BusAttempt.answers ++ rs)

/-- ExecuteRetriesThenAnswers: as many retried attempts as there can be, and none, of either kind. -/
theorem witness_ExecuteRetriesThenAnswers (n : Nat) (hn : n = 0 ∨ n + 1 = Config.cfg.maxAttempts) (a : BusAttempt)
    (ha : a = .short 6 ∨ a = .whole 7 nakFrame) :
    let retried := List.replicate n a
    let s := retrying retried [7] [okFrame]
    command.payload.length + 7 ≤ Config.cfg.maxFrame ∧ s.bus.writes = retried.map BusAttempt.count ++ 7 :: [] ∧
      command.payload.length + 7 ≤ 7 ∧ s.bus.reads = retried.flatMap BusAttempt.answers ++ okFrame :: [] ∧
      retried.length < Config.cfg.maxAttempts ∧
      (∀ b ∈ retried, b.Retried Config.cfg (command.payload.length + 7)) ∧
      okFrame.length ≤ Config.cfg.rspCap ∧
      validateFn Config.cfg okFrame Config.cfg.rspCap = (.success, []) ∧
      s.bus.wakes = List.replicate retried.length true ++ [] := by
  have h : 1 ≤ Config.cfg.maxAttempts := Config.validCfg.maxAttempts_pos
  refine ⟨Config.validCfg.maxFrame_ge, rfl, by decide, rfl, by rw [List.length_replicate]; omega, ?_,
    frame_of_four_le _, validate_okFrame, (List.append_nil _).symm⟩
  intro b hb
  rw [List.eq_of_mem_replicate hb]
  exact retried_attempts a ha

/-- ExecuteRetryBound: all but the last attempt of one kind, the last of either. -/
theorem witness_ExecuteRetryBound (n : Nat) (hn : n + 1 = Config.cfg.maxAttempts) (a last : BusAttempt)
    (ha : a = .short 6 ∨ a = .whole 7 nakFrame) (hl : last = .short 6 ∨ last = .whole 7 nakFrame) :
    let retried := List.replicate n a
    let s := retrying retried [last.count] last.answers
    command.payload.length + 7 ≤ Config.cfg.maxFrame ∧
      s.bus.writes = retried.map BusAttempt.count ++ last.count :: [] ∧
      s.bus.reads = retried.flatMap BusAttempt.answers ++ (last.answers ++ []) ∧
      retried.length + 1 = Config.cfg.maxAttempts ∧
      (∀ b ∈ retried, b.Retried Config.cfg (command.payload.length + 7)) ∧
      last.Retried Config.cfg (command.payload.length + 7) ∧
      s.bus.wakes = List.replicate retried.length true ++ [] := by
  refine ⟨Config.validCfg.maxFrame_ge, rfl, by rw [List.append_nil]; rfl, by rw [List.length_replicate, hn], ?_,
    retried_attempts last hl, (List.append_nil _).symm⟩
  intro b hb
  rw [List.eq_of_mem_replicate hb]
  exact retried_attempts a ha

theorem witness_ExecuteShortWritesReadNothing :
    let n := Config.cfg.maxAttempts
    let s := scripted [] (List.replicate n 6) []
    command.payload.length + 7 ≤ Config.cfg.maxFrame ∧ s.bus.writes = List.replicate n 6 ++ [] ∧
      (List.replicate n 6).length = n ∧ (∀ m ∈ List.replicate n 6, m < command.payload.length + 7) := by
  refine ⟨Config.validCfg.maxFrame_ge, (List.append_nil _).symm, by simp, ?_⟩
  intro m hm; rw [List.eq_of_mem_replicate hm]; decide

/-- CrComputeDigestsMessage, CrMessageLayout; VerifySymmetry with the slots 0 and 15 beside it. -/
theorem witness_CrComputeDigestsMessage :
    challengeC.length = 32 ∧ keyK.length = 32 ∧ (zeros 8).length = 8 ∧ (zeros 3).length = 3 ∧
      (zeros 4).length = 4 ∧ (zeros 2).length = 2 ∧ 0 < 16 ∧ 15 < 16 := by decide

/-- CrComputeLengthErrors: each operand in turn the first wrong one, one byte off. -/
theorem witness_CrComputeLengthErrors :
    ∀ l ∈ [(31, 32, 8, 3, 4, 2), (32, 33, 8, 3, 4, 2), (32, 32, 7, 3, 4, 2), (32, 32, 8, 4, 4, 2),
        (32, 32, 8, 3, 3, 2), (32, 32, 8, 3, 4, 1)],
      ¬ ((zeros l.1).length = 32 ∧ (zeros l.2.1).length = 32 ∧ (zeros l.2.2.1).length = 8 ∧
        (zeros l.2.2.2.1).length = 3 ∧ (zeros l.2.2.2.2.1).length = 4 ∧ (zeros l.2.2.2.2.2).length = 2) := by
  decide

/-- CrVerifyMatches, VerifyIsComputeThenCompare, CrVerifyFixedTime, DifferentSlotsDifferentMessages. -/
theorem witness_CrVerifyMatches :
    0 < 16 ∧ 15 < 16 ∧ 0 ≠ 15 ∧ challengeC.length = 32 ∧ keyK.length = 32 ∧ digestH2.length = 32 ∧
      (zeros 32).length = 32 := by decide

/-- CrVerifyOperandErrors: the slot 16, and each operand one byte off. -/
theorem witness_CrVerifyOperandErrors :
    ∀ l ∈ [(16, 32, 32, 32), (15, 31, 32, 32), (15, 32, 33, 32), (15, 32, 32, 31)],
      ¬ (l.1 < 16 ∧ (zeros l.2.1).length = 32 ∧ (zeros l.2.2.1).length = 32 ∧ (zeros l.2.2.2).length = 32) := by
  decide

theorem witness_ChallengeResponseIsPure :
    (Instr.crCompute [] [] 0 ⟨0, 0⟩ [] [] [] []).op = .crCompute ∧ (Instr.crVerify [] [] [] 16).op = .crVerify :=
  ⟨rfl, rfl⟩

/-- The response a device with this key and slot gives. -/
def responseOf (slot : Nat) : Bytes := (Config.cfg.digest (crVerifyMessage Config.cfg challengeC keyK slot)).toList

theorem verify_responseOf (slot : Nat) (h : slot < 16) :
    ∃ t, exec (.crVerify challengeC (responseOf slot) keyK slot) State.reset = .next t ∧
      t.result = some { Result.blank .crVerify with matched := some true } := by
  have hl : (responseOf slot).length = 32 := by simp [responseOf]
  have hp := (crVerifyError_eq_none_iff challengeC (responseOf slot) keyK slot).2 ⟨h, rfl, rfl, hl⟩
  refine ⟨_, rfl, ?_⟩
  rw [crVerify_of_operands Config.cfg _ _ _ _ _ hp]
  simp only [responseOf, fixedTimeCompare_fst _ _ rfl, decide_true]

/-- CrVerifyExposesMatchOnly: two runs, for the slots 0 and 15, that both match. -/
theorem witness_CrVerifyExposesMatchOnly :
    ∃ t t' r r', exec (.crVerify challengeC (responseOf 0) keyK 0) State.reset = .next t ∧ t.result = some r ∧
      exec (.crVerify challengeC (responseOf 15) keyK 15) State.reset = .next t' ∧ t'.result = some r' ∧
      r.outcome = .success ∧ r'.outcome = .success ∧ r.matched = r'.matched := by
  obtain ⟨t, h, hr⟩ := verify_responseOf 0 (by decide)
  obtain ⟨t', h', hr'⟩ := verify_responseOf 15 (by decide)
  exact ⟨t, t', _, _, h, hr, h', hr', rfl, rfl, rfl⟩

/-- A state between operations that is not the one after reset: an EXECUTE has returned COMM_ERROR. -/
def afterCommError : State :=
  { hosted [.readResult] with
    engState := .fatalFailure, attempt := 1
    result := some { Result.blank .execute with outcome := .commError, attempts := 1 } }

theorem witness_StepKeepsInvariant : afterCommError.Inv Config.cfg ∧ ∃ t, step afterCommError = .next t := by
  have h : 1 ≤ Config.cfg.maxAttempts := Config.validCfg.maxAttempts_pos
  refine ⟨⟨⟨rfl, rfl, rfl, rfl, rfl, rfl⟩, .inr (.inr rfl), h, ?_, ?_, ?_, ?_⟩, _, rfl⟩
  · intro r hr
    cases hr
    constructor <;> simp [Result.blank, permitted]
    exact h
  all_goals intro r hr; cases hr

theorem witness_NoStateBetweenOperations :
    State.reset.bus = afterCommError.bus ∧ State.reset ≠ afterCommError := by decide

theorem witness_ProgrammingErrorWritesNothingElse :
    ∃ t r, exec (.crVerify [] [] [] 16) State.reset = .next t ∧ t.result = some r ∧
      r.outcome = .programmingError :=
  ⟨_, _, rfl, rfl, rfl⟩

/-- EventsOfEachOperation, EngineUntouchedByOtherOperations: an operation of each case. -/
theorem witness_operations :
    (Instr.serialize command).op = .serialize ∧ (Instr.validate [] 0).op = .validate ∧
      (Instr.execute command).op = .execute ∧ (Instr.validate [] 0).op ≠ .execute ∧
      (Instr.validate [] 0).op ≠ .serialize ∧ (Instr.serialize command).op ≠ .validate ∧
      (Instr.serialize command).op ≠ .crVerify := by decide

theorem witness_EveryOperationReturns : afterCommError.Quiet := ⟨rfl, rfl, rfl, rfl, rfl, rfl⟩

/-- ReleasedBufferReadFaults: a buffer for each clause on the others. -/
theorem witness_ReleasedBufferReadFaults :
    Buffer.rx ≠ .tx ∧ Buffer.tx ≠ .rx ∧ Buffer.tx ≠ .msg ∧ Buffer.tx ≠ .dig := by decide

theorem witness_EventsAreNeverUndone : ∃ t, step (hosted [.reset]) = .next t := ⟨_, rfl⟩

end Sys2Proof.Tests
end

section
/-! The scope of a step: which request it runs, and from which state. -/

namespace Sys2Proof.Machine

/-- Settles O9. The fetch rule of one step, `step_request`, is the whole statement: an idle state takes the move
off and decodes it, and only then runs `exec` (log entries 4 and 5). -/
theorem stepRunsDecodedRequest : Obligations.StepRunsDecodedRequest := by
  intro s bytes rest i hidle hmove hdecode
  exact step_request s bytes rest i hidle hmove hdecode

end Sys2Proof.Machine
end

section
/-! What each operation can return with, said once: its own record, its events, the buffers it releases, and how it
leaves the engine. -/

namespace Sys2Proof.Machine

/-! Records an operation may write (R40 to R42, R306). -/

theorem outcomeOf_eq_success_iff (st : DeviceStatus) : outcomeOf st = .success ↔ st = .success := by
  cases st <;> decide

theorem permitted_validate (st : DeviceStatus) : permitted .validate (outcomeOf st) = true := by
  cases st <;> rfl

theorem permitted_execute_iff (o : LibOutcome) : permitted .execute o = true ↔ o ≠ .awake ∧ o ≠ .nak := by
  cases o <;> decide

/-- An operation that can give a reason at all can return PROGRAMMING_ERROR. -/
theorem permitted_of_mayRaise (op : OpName) (p : PErr) (h : mayRaise op p = true) :
    permitted op .programmingError = true := by
  cases op with
  | validate => cases h
  | _ => rfl

theorem crComputeError_mayRaise {challenge key otp8 otp3 sn4 sn23 : Bytes} {p : PErr}
    (h : crComputeError challenge key otp8 otp3 sn4 sn23 = some p) : mayRaise .crCompute p = true := by
  have hmem := firstViolated_mem _ p h
  simp only [List.map_cons, List.map_nil, List.mem_cons, List.not_mem_nil, or_false] at hmem
  rcases hmem with rfl | rfl | rfl | rfl | rfl | rfl <;> rfl

theorem crVerifyError_mayRaise {challenge expected key : Bytes} {slot : Nat} {p : PErr}
    (h : crVerifyError challenge expected key slot = some p) : mayRaise .crVerify p = true := by
  have hmem := firstViolated_mem _ p h
  simp only [List.map_cons, List.map_nil, List.mem_cons, List.not_mem_nil, or_false] at hmem
  rcases hmem with rfl | rfl | rfl | rfl <;> rfl

theorem legal_programmingError (c : Cfg) (op : OpName) (p : PErr) (h : mayRaise op p = true) :
    Result.Legal c { Result.blank op with outcome := .programmingError, reason := some p } where
  outcome_permitted := permitted_of_mayRaise op p h
  reason_iff := by simp
  reason_raised := by rintro _ ⟨⟩; exact h
  frame_only := by simp [Result.blank]
  frame_length := Nat.zero_le _
  payload_only := by simp [Result.blank]
  digest_length := by simp [Result.blank]
  match_only := by simp [Result.blank]
  attempts_le := Nat.zero_le _
  attempts_only := by simp [Result.blank]

theorem legal_serialize (c : Cfg) (d : CommandDescriptor) (h : d.payload.length + 7 ≤ c.maxFrame) :
    Result.Legal c { Result.blank .serialize with frame := commandFrame c d } where
  outcome_permitted := rfl
  reason_iff := by simp [Result.blank]
  reason_raised := by simp [Result.blank]
  frame_only := by simp [Result.blank, ← List.length_pos_iff]
  frame_length := by simpa using h
  payload_only := by simp [Result.blank]
  digest_length := by simp [Result.blank]
  match_only := by simp [Result.blank]
  attempts_le := Nat.zero_le _
  attempts_only := by simp [Result.blank]

theorem legal_validate (c : Cfg) (raw : Bytes) (cap : Nat) :
    Result.Legal c { Result.blank .validate with
      outcome := outcomeOf (validateFn c raw cap).1, payload := (validateFn c raw cap).2 } where
  outcome_permitted := permitted_validate _
  reason_iff := by cases (validateFn c raw cap).1 <;> simp [Result.blank, outcomeOf]
  reason_raised := by simp [Result.blank]
  frame_only := by simp [Result.blank]
  frame_length := Nat.zero_le _
  payload_only hp :=
    ⟨.inr rfl, (outcomeOf_eq_success_iff _).2 (by_contra fun hne => hp (validateFn_payload c raw cap hne))⟩
  digest_length := by simp [Result.blank]
  match_only := by simp [Result.blank]
  attempts_le := Nat.zero_le _
  attempts_only := by simp [Result.blank]

theorem legal_crCompute (c : Cfg) (m : Bytes) :
    Result.Legal c { Result.blank .crCompute with digest := (c.digest m).toList } := by
  constructor <;> simp [Result.blank, permitted]

theorem legal_crVerify (c : Cfg) (matched : Bool) :
    Result.Legal c { Result.blank .crVerify with matched := some matched } := by
  constructor <;> simp [Result.blank, permitted]

/-- R190, R191: the record EXECUTE writes at the end of a sequence of at most `MAX_ATTEMPTS` attempts. -/
theorem legal_execute (c : Cfg) (frame : Bytes) (texec k : Nat) (events : List Event) (outcome : LibOutcome)
    (payload : Bytes) (h : Attempts c frame texec c.maxAttempts k events outcome payload) :
    Result.Legal c { Result.blank .execute with outcome := outcome, payload := payload, attempts := k } := by
  obtain ⟨hpos, hle, hnak, hawake, hperr, hpayload⟩ := h.bounds
  exact {
    outcome_permitted := (permitted_execute_iff outcome).2 ⟨hawake, hnak⟩
    reason_iff := by simp [Result.blank, hperr]
    reason_raised := by simp [Result.blank]
    frame_only := by simp [Result.blank]
    frame_length := Nat.zero_le _
    payload_only := fun hp => ⟨.inl rfl, by_contra fun hne => hp (hpayload hne)⟩
    digest_length := by simp [Result.blank]
    match_only := by simp [Result.blank]
    attempts_le := hle
    attempts_only := by simp [Result.blank, hperr]; omega }

/-! Events within their ports' contracts (R78, R79, R82). -/

theorem Attempt.events_legal {c : Cfg} {frame : Bytes} {texec : Nat} {events : List Event} {st : DeviceStatus}
    {payload : Bytes} (hge : 7 ≤ frame.length) (hle : frame.length ≤ c.maxFrame)
    (h : Attempt c frame texec events st payload) : ∀ e ∈ events, e.Legal c := by
  cases h with
  | shortWrite n hn => simp [Event.Legal, hge, hle, hn.le]
  | complete r hr => simp [Event.Legal, hge, hle, hr]

theorem Attempts.events_legal {c : Cfg} {frame : Bytes} {texec left k : Nat} {events : List Event}
    {outcome : LibOutcome} {payload : Bytes} (hge : 7 ≤ frame.length) (hle : frame.length ≤ c.maxFrame)
    (h : Attempts c frame texec left k events outcome payload) : ∀ e ∈ events, e.Legal c := by
  induction h with
  | success _ _ _ h => exact h.events_legal hge hle
  | terminal _ _ _ _ h _ => exact h.events_legal hge hle
  | exhausted _ _ _ h _ => exact h.events_legal hge hle
  | again _ _ ev rest _ _ _ ok _ h _ _ ih =>
    intro e he
    rcases List.mem_append.1 he with he | he
    · exact h.events_legal hge hle e he
    rcases List.mem_cons.1 he with rfl | he
    · trivial
    · exact ih e he

theorem crVerifyMessage_length (c : Cfg) (challenge key : Bytes) (slot : Nat) (hc : challenge.length = 32)
    (hk : key.length = 32) : (crVerifyMessage c challenge key slot).length = 88 :=
  crMessage_length c challenge key _ _ _ _ _ _ hc hk rfl rfl rfl rfl

/-- An operation `op` started in `s` can return in `t`: with its own legal record and legal new events, every buffer
released if it was before, ENG_STATE and ATTEMPT untouched or as EXECUTE leaves them, and what the HOST has read
untouched. -/
structure Returns (c : Cfg) (op : OpName) (s t : State) : Prop where
  record    : ∃ r, t.result = some r ∧ r.op = op ∧ r.Legal c
  events    : ∃ ev, t.trace = s.trace ++ ev ∧ ∀ e ∈ ev, e.Legal c
  quiet     : s.Quiet → t.Quiet
  engine    : t.engState = s.engState ∨ t.engState = .idle ∨ t.engState = .success ∨ t.engState = .fatalFailure
  attempt   : t.attempt = s.attempt ∨ t.attempt ≤ c.maxAttempts
  delivered : t.delivered = s.delivered
  busyTests : t.busyTests = s.busyTests

/-- R303: an operation ended by a programming error; EXECUTE has reset its engine by then (R181). -/
theorem returns_programmingError (c : Cfg) (op : OpName) (p : PErr) (s : State) (engState : EngState) (attempt : Nat)
    (hraise : mayRaise op p = true) (heng : engState = s.engState ∨ engState = .idle)
    (hatt : attempt = s.attempt ∨ attempt = 0) :
    Returns c op s { s with
      opActive := none, engState := engState, attempt := attempt
      result := some { Result.blank op with outcome := .programmingError, reason := some p } } where
  record := ⟨_, rfl, rfl, legal_programmingError c op p hraise⟩
  events := ⟨[], by simp⟩
  quiet := fun ⟨_, hbuffers⟩ => ⟨rfl, hbuffers⟩
  engine := heng.imp_right .inl
  attempt := hatt.imp_right fun e => (Nat.le_of_eq e).trans (Nat.zero_le _)
  delivered := rfl
  busyTests := rfl

theorem serialize_returns (c : Cfg) (d : CommandDescriptor) (s : State) :
    Returns c .serialize s (serialize c d s) := by
  rcases Nat.lt_or_ge c.maxFrame (d.payload.length + 7) with hbig | hfits
  · rw [serialize_of_oversize c d s hbig]
    exact returns_programmingError c .serialize .oversize s _ _ rfl (.inl rfl) (.inl rfl)
  · rw [serialize_of_fits c d s hfits]
    exact {
      record := ⟨_, rfl, rfl, legal_serialize c d hfits⟩
      events := ⟨[], by simp⟩
      quiet := fun ⟨_, _, hrx, hmsg, hdig, hheld⟩ => ⟨rfl, rfl, hrx, hmsg, hdig, by simp [hheld, Held.none]⟩
      engine := .inl rfl
      attempt := .inl rfl
      delivered := rfl
      busyTests := rfl }

theorem validate_returns (c : Cfg) (raw : Bytes) (cap : Nat) (s : State) :
    Returns c .validate s (validate c raw cap s) := by
  rw [validate_eq]
  exact {
    record := ⟨_, rfl, rfl, legal_validate c raw cap⟩
    events := ⟨[], by simp⟩
    quiet := fun ⟨_, htx, _, hmsg, hdig, hheld⟩ => ⟨rfl, htx, rfl, hmsg, hdig, by simp [hheld, Held.none]⟩
    engine := .inl rfl
    attempt := .inl rfl
    delivered := rfl
    busyTests := rfl }

/-- R254, R265: what CR_COMPUTE and CR_VERIFY have in common once their operands are accepted: one HASH event for a
message of 88 bytes, and MSGBUF and DIGBUF released. -/
theorem returns_hashed (c : Cfg) (op : OpName) (m : Bytes) (cmpLog : List CmpStep) (r : Result) (s : State)
    (hm : m.length = 88) (hop : r.op = op) (hr : r.Legal c) :
    Returns c op s { s with
      msgbuf := [], digbuf := [], held := { s.held with msg := false, dig := false }, opActive := none
      trace := s.trace ++ [.hash m (c.digest m).toList], cmpLog := cmpLog, result := some r } where
  record := ⟨r, rfl, hop, hr⟩
  events := ⟨_, rfl, by simp [Event.Legal, hm]⟩
  quiet := fun ⟨_, htx, hrx, _, _, hheld⟩ => ⟨rfl, htx, hrx, rfl, rfl, by simp [hheld, Held.none]⟩
  engine := .inl rfl
  attempt := .inl rfl
  delivered := rfl
  busyTests := rfl

theorem crCompute_returns (c : Cfg) (challenge key : Bytes) (mode : Byte) (param2 : Byte2)
    (otp8 otp3 sn4 sn23 : Bytes) (s : State) :
    Returns c .crCompute s (crCompute c challenge key mode param2 otp8 otp3 sn4 sn23 s) := by
  cases h : crComputeError challenge key otp8 otp3 sn4 sn23 with
  | some p =>
    rw [crCompute_of_error (h := h)]
    exact returns_programmingError c .crCompute p s _ _ (crComputeError_mayRaise h)
      (.inl rfl) (.inl rfl)
  | none =>
    obtain ⟨hc, hk, h8, h3, h4, h2⟩ := (crComputeError_eq_none_iff ..).1 h
    rw [crCompute_of_lengths (h := h)]
    exact returns_hashed c .crCompute _ s.cmpLog _ s
      (crMessage_length c challenge key mode param2 otp8 otp3 sn4 sn23 hc hk h8 h3 h4 h2) rfl (legal_crCompute c _)

theorem crVerify_returns (c : Cfg) (challenge expected key : Bytes) (slot : Nat) (s : State) :
    Returns c .crVerify s (crVerify c challenge expected key slot s) := by
  cases h : crVerifyError challenge expected key slot with
  | some p =>
    rw [crVerify_of_error (h := h)]
    exact returns_programmingError c .crVerify p s _ _ (crVerifyError_mayRaise h) (.inl rfl) (.inl rfl)
  | none =>
    obtain ⟨-, hc, hk, -⟩ := (crVerifyError_eq_none_iff ..).1 h
    rw [crVerify_of_operands (h := h)]
    exact returns_hashed c .crVerify _ _ _ s (crVerifyMessage_length c challenge key slot hc hk) rfl
      (legal_crVerify c _)

/-- R180 to R192: EXECUTE, from the sequence of attempts `attemptLoop_spec` shows it to be. -/
theorem execute_returns (c : Cfg) (d : CommandDescriptor) (s : State) (hpos : 1 ≤ c.maxAttempts) :
    Returns c .execute s (execute c d s) := by
  rcases Nat.lt_or_ge c.maxFrame (d.payload.length + 7) with hbig | hfits
  · rw [execute_of_oversize c d s hbig]
    exact returns_programmingError c .execute .oversize s _ _ rfl (.inr rfl) (.inr rfl)
  obtain ⟨fuel, hfuel⟩ : ∃ fuel, c.maxAttempts = fuel + 1 := ⟨c.maxAttempts - 1, by omega⟩
  obtain ⟨k, events, outcome, payload, hattempts, bus, hloop⟩ := attemptLoop_spec c d.texec fuel { s with
    opActive := some .execute, engState := .idle, attempt := 0, txbuf := commandFrame c d
    held := { s.held with tx := true } } (by simp [hfuel])
  simp only [← hfuel, Nat.zero_add] at hattempts hloop
  rw [execute_of_fits c d s hfits, hloop]
  exact {
    record := ⟨_, rfl, rfl, legal_execute c _ _ k events outcome payload hattempts⟩
    events := ⟨events, rfl, hattempts.events_legal (by simp) (by simpa using hfits)⟩
    quiet := fun ⟨_, _, _, hmsg, hdig, hheld⟩ => ⟨rfl, rfl, rfl, hmsg, hdig, by simp [hheld, Held.none]⟩
    engine := by by_cases ho : outcome = .success <;> simp [ho]
    attempt := .inr hattempts.bounds.2.1
    delivered := rfl
    busyTests := rfl }

/-- R39, R300: every operation returns. -/
theorem exec_returns (i : Instr) (s : State) : ∃ t, exec i s = .next t ∧ Returns Config.cfg i.op s t := by
  cases i with
  | serialize d => exact ⟨_, rfl, serialize_returns _ d s⟩
  | execute d => exact ⟨_, rfl, execute_returns _ d s Config.validCfg.maxAttempts_pos⟩
  | validate raw cap => exact ⟨_, rfl, validate_returns _ raw cap s⟩
  | crCompute challenge key mode param2 otp8 otp3 sn4 sn23 =>
    exact ⟨_, rfl, crCompute_returns _ challenge key mode param2 otp8 otp3 sn4 sn23 s⟩
  | crVerify challenge expected key slot => exact ⟨_, rfl, crVerify_returns _ challenge expected key slot s⟩

theorem returns_of_exec (i : Instr) (s t : State) (h : exec i s = .next t) : Returns Config.cfg i.op s t := by
  obtain ⟨u, hu, hret⟩ := exec_returns i s
  rw [hu] at h
  cases h
  exact hret

end Sys2Proof.Machine
end

section
/-! The invariant: it holds after reset, and every step keeps it. -/

namespace Sys2Proof.Machine

/-- R33 to R42: an operation that returns keeps the invariant. -/
theorem Returns.inv {c : Cfg} {op : OpName} {s t : State} (h : Returns c op s t) (hs : s.Inv c) : t.Inv c := by
  obtain ⟨r, hresult, -, hlegal⟩ := h.record
  obtain ⟨ev, htrace, hev⟩ := h.events
  exact {
    quiet := h.quiet hs.quiet
    engine_rests := h.engine.elim (fun e => e ▸ hs.engine_rests) id
    attempt_le := h.attempt.elim (fun e => e ▸ hs.attempt_le) id
    result_legal := fun r' hr' => Option.some.inj (hresult.symm.trans hr') ▸ hlegal
    delivered_legal := h.delivered ▸ hs.delivered_legal
    trace_legal := fun e he => (List.mem_append.1 (htrace ▸ he)).elim (hs.trace_legal e) (hev e)
    never_seen_busy := h.busyTests ▸ hs.never_seen_busy }

/-- R340, R341: a reset establishes the invariant's clauses on the block; the others speak of what it leaves. -/
theorem inv_hostReset (c : Cfg) (s : State) (htrace : ∀ e ∈ s.trace, e.Legal c)
    (hdelivered : ∀ r ∈ s.delivered, r.Legal c) (hbusy : ∀ b ∈ s.busyTests, b = none) : (hostReset s).Inv c where
  quiet := ⟨rfl, rfl, rfl, rfl, rfl, rfl⟩
  engine_rests := .inl rfl
  attempt_le := Nat.zero_le _
  result_legal := by simp
  delivered_legal := hdelivered
  trace_legal := htrace
  never_seen_busy := hbusy

/-- The HOST's queue is no part of the invariant. -/
theorem State.Inv.withHost {c : Cfg} {s : State} (h : s.Inv c) (rest : List HostMove) :
    State.Inv c { s with host := rest } :=
  { h with }

/-- R341: of an operation's events, those issued before the reset stay. -/
theorem resetDuring_trace (s t : State) (k : Nat) (events : List Event) (h : t.trace = s.trace ++ events) :
    (resetDuring s t k).trace = s.trace ++ events.take k := by
  simp [resetDuring, h]

/-- R341: a reset during an operation keeps the invariant, since the events that stay are some of its legal ones. -/
theorem Returns.inv_resetDuring {c : Cfg} {op : OpName} {s t : State} (h : Returns c op s t) (hs : s.Inv c)
    (k : Nat) : (resetDuring s t k).Inv c := by
  obtain ⟨events, htrace, hlegal⟩ := h.events
  refine inv_hostReset c _ (fun e he => ?_) hs.delivered_legal hs.never_seen_busy
  rw [← hostReset_trace] at he
  rcases List.mem_append.1 (resetDuring_trace s t k events htrace ▸ he) with he | he
  · exact hs.trace_legal e he
  · exact hlegal e (List.mem_of_mem_take he)

/-- R46: reading a legal record out of RESULT keeps the invariant. -/
theorem State.Inv.deliver {c : Cfg} {s : State} {r : Result} (h : s.Inv c) (hr : s.result = some r) :
    State.Inv c { s with delivered := s.delivered ++ [r] } := by
  have hall : ∀ r' ∈ s.delivered ++ [r], r'.Legal c := by
    simpa [or_imp, forall_and] using And.intro h.delivered_legal (h.result_legal r hr)
  exact { h with delivered_legal := hall }

/-- R39, R46: reading NONE out of OP_ACTIVE keeps the invariant. -/
theorem State.Inv.busyTest {c : Cfg} {s : State} (h : s.Inv c) :
    State.Inv c { s with busyTests := s.busyTests ++ [none] } := by
  have hall : ∀ b ∈ s.busyTests ++ [none], b = none := by
    simpa [or_imp, forall_and] using h.never_seen_busy
  exact { h with never_seen_busy := hall }

/-- Settles O45: the state after reset is what a reset leaves of itself, with nothing issued and nothing read. -/
theorem invariantAfterReset : Obligations.InvariantAfterReset :=
  inv_hostReset Config.cfg State.reset (by simp [State.reset]) (by simp [State.reset]) (by simp [State.reset])

/-- Settles O46, by the seven things a step can do (`step_cases`). -/
theorem stepKeepsInvariant : Obligations.StepKeepsInvariant := by
  intro s t hs hstep
  obtain ⟨-, hcase⟩ := step_cases s t hstep
  rcases hcase with ⟨-, rfl⟩ | ⟨bytes, rest, i, -, -, hexec⟩ | ⟨bytes, k, rest, i, u, -, -, hexec, rfl⟩ |
    ⟨rest, -, rfl⟩ | ⟨rest, r, -, hr, rfl⟩ | ⟨rest, -, rfl⟩ | ⟨rest, use, -, rfl⟩
  · exact hs
  · exact (returns_of_exec i _ t hexec).inv (hs.withHost rest)
  · exact (returns_of_exec i _ u hexec).inv_resetDuring (hs.withHost rest) k
  · exact inv_hostReset _ _ hs.trace_legal hs.delivered_legal hs.never_seen_busy
  · exact (hs.withHost rest).deliver hr
  · exact (hs.withHost rest).busyTest
  · exact hs.withHost rest

/-- R71, R310: between operations a checked read of any buffer is a fault. -/
theorem readBuffer_of_quiet {s : State} (h : s.Quiet) (b : Buffer) :
    readBuffer b s = .error .releasedBuffer := by
  obtain ⟨-, -, -, -, -, hheld⟩ := h
  rw [readBuffer_fault_iff, hheld, Held.none_has]

/-- Settles O50: `exec_returns`, with the permitted outcome from the record's legality and the faulting reads from
the quiet state. -/
theorem everyOperationReturns : Obligations.EveryOperationReturns := by
  intro i s hs
  obtain ⟨t, hexec, hret⟩ := exec_returns i s
  obtain ⟨r, hresult, hop, hlegal⟩ := hret.record
  have hquiet : t.Quiet := hret.quiet hs
  exact ⟨t, r, hexec, hresult, hop, hop ▸ hlegal.outcome_permitted, hquiet, readBuffer_of_quiet hquiet⟩

end Sys2Proof.Machine
end

section
/-! No state carries meaning between operations (R44): two runs of one operation from states with the same coming
BUS answers, side by side. -/

namespace Sys2Proof.Machine

/-- Two runs, from `s` to `t` and from `s'` to `t'`, have issued the same events. -/
def SameEvents (s s' t t' : State) : Prop :=
  ∃ events, t.trace = s.trace ++ events ∧ t'.trace = s'.trace ++ events

theorem SameEvents.refl (s s' : State) : SameEvents s s' s s' := ⟨[], by simp⟩

/-- The runs compose: what was issued so far and what is issued next. -/
theorem SameEvents.trans {s s' t t' u u' : State} (h₁ : SameEvents s s' t t') (h₂ : SameEvents t t' u u') :
    SameEvents s s' u u' := by
  obtain ⟨ev₁, e₁, e₁'⟩ := h₁
  obtain ⟨ev₂, e₂, e₂'⟩ := h₂
  exact ⟨ev₁ ++ ev₂, by rw [e₂, e₁, List.append_assoc], by rw [e₂', e₁', List.append_assoc]⟩

/-- All that the loop of attempts reads of the state: ATTEMPT, TXBUF and the BUS's coming answers. -/
structure LoopInputsAgree (s s' : State) : Prop where
  attempt : s.attempt = s'.attempt
  txbuf   : s.txbuf = s'.txbuf
  bus     : s.bus = s'.bus

/-- What R44 asks of two runs of one operation: the same RESULT, the same events and the same answers used. -/
structure ActAlike (s s' t t' : State) : Prop where
  result : t.result = t'.result
  events : SameEvents s s' t t'
  bus    : t.bus = t'.bus

/-- R184 to R187: the BUS takes the whole frame, and the answer read decides. -/
theorem runAttempt_of_complete (c : Cfg) (texec : Nat) (s : State)
    (h : (s.bus.nextWrite s.txbuf.length).1 = s.txbuf.length) :
    runAttempt c texec s =
      (let a := (s.bus.nextWrite s.txbuf.length).2.nextRead c.rspCap
       let e := endOf (validateFn c a.1 c.rspCap).1 (validateFn c a.1 c.rspCap).2
       (e.1, { s with
          attempt := s.attempt + 1, engState := e.2, rxbuf := a.1, held := { s.held with rx := true }, bus := a.2
          trace := s.trace ++ [.write s.txbuf s.txbuf.length, .wait texec, .read c.rspCap a.1] })) := by
  simp only [runAttempt, busWrite, recordEvent, h, ne_eq, not_true_eq_false, if_false, waitAndRead, busRead,
    fillRx, timerWait, judgeAnswer_eq, List.append_assoc, List.cons_append, List.nil_append]

/-- R183: the BUS takes less than the frame. -/
theorem runAttempt_of_short (c : Cfg) (texec : Nat) (s : State)
    (h : (s.bus.nextWrite s.txbuf.length).1 ≠ s.txbuf.length) :
    runAttempt c texec s = (.retry, { s with
      attempt := s.attempt + 1, engState := .retryableFailure, bus := (s.bus.nextWrite s.txbuf.length).2
      trace := s.trace ++ [.write s.txbuf (s.bus.nextWrite s.txbuf.length).1] }) := by
  simp only [runAttempt, busWrite, recordEvent, ne_eq, h, not_false_eq_true, if_true]

theorem runAttempt_alike (c : Cfg) (texec : Nat) (s s' : State) (h : LoopInputsAgree s s') :
    ∃ e u u', runAttempt c texec s = (e, u) ∧ runAttempt c texec s' = (e, u') ∧
      LoopInputsAgree u u' ∧ SameEvents s s' u u' := by
  obtain ⟨hatt, htx, hbus⟩ := h
  by_cases hw : (s.bus.nextWrite s.txbuf.length).1 = s.txbuf.length
  · have hw' : (s'.bus.nextWrite s'.txbuf.length).1 = s'.txbuf.length := by rw [← hbus, ← htx, hw]
    rw [runAttempt_of_complete c texec s hw, runAttempt_of_complete c texec s' hw', ← hbus, ← htx, ← hatt]
    exact ⟨_, _, _, rfl, rfl, ⟨rfl, rfl, rfl⟩, _, rfl, rfl⟩
  · have hw' : (s'.bus.nextWrite s'.txbuf.length).1 ≠ s'.txbuf.length := by rwa [← hbus, ← htx]
    rw [runAttempt_of_short c texec s hw, runAttempt_of_short c texec s' hw', ← hbus, ← htx, ← hatt]
    exact ⟨_, _, _, rfl, rfl, ⟨rfl, rfl, rfl⟩, _, rfl, rfl⟩

/-- R189: one wake before the next attempt. -/
theorem rewake_alike (s s' : State) (h : LoopInputsAgree s s') :
    LoopInputsAgree (rewake s) (rewake s') ∧ SameEvents s s' (rewake s) (rewake s') :=
  ⟨⟨h.attempt, h.txbuf, by simp [h.bus]⟩, [.wake s.bus.nextWake.1], by simp, by simp [h.bus]⟩

theorem executeReturn_alike (outcome : LibOutcome) (payload : Bytes) (s s' u u' : State)
    (h : LoopInputsAgree u u') (hev : SameEvents s s' u u') :
    ActAlike s s' (executeReturn outcome payload u) (executeReturn outcome payload u') :=
  ⟨by simp [h.attempt], hev, h.bus⟩

theorem executeExhausted_alike (s s' u u' : State) (h : LoopInputsAgree u u') (hev : SameEvents s s' u u') :
    ActAlike s s' (executeExhausted u) (executeExhausted u') :=
  ⟨by simp [executeExhausted, h.attempt], hev, h.bus⟩

/-- R180 to R192: the two loops run in step, attempt by attempt. -/
theorem attemptLoop_alike (c : Cfg) (texec fuel : Nat) : ∀ s s' : State, LoopInputsAgree s s' →
    ActAlike s s' (attemptLoop c texec fuel s) (attemptLoop c texec fuel s') := by
  induction fuel with
  | zero => intro s s' h; exact executeExhausted_alike s s' s s' h (.refl s s')
  | succ fuel ih =>
    intro s s' h
    obtain ⟨e, u, u', hu, hu', hagree, hev⟩ := runAttempt_alike c texec s s' h
    cases e with
    | done outcome payload =>
      rw [attemptLoop_done c texec fuel s u _ _ hu, attemptLoop_done c texec fuel s' u' _ _ hu']
      exact executeReturn_alike outcome payload s s' u u' hagree hev
    | retry =>
      rcases Nat.lt_or_ge u.attempt c.maxAttempts with hleft | hused
      · obtain ⟨hagree', hwake⟩ := rewake_alike u u' hagree
        have hrest := ih (rewake u) (rewake u') hagree'
        rw [attemptLoop_again c texec fuel s u hu hleft,
          attemptLoop_again c texec fuel s' u' hu' (hagree.attempt ▸ hleft)]
        exact ⟨hrest.result, (hev.trans hwake).trans hrest.events, hrest.bus⟩
      · rw [attemptLoop_exhausted c texec fuel s u hu hused,
          attemptLoop_exhausted c texec fuel s' u' hu' (hagree.attempt ▸ hused)]
        exact executeExhausted_alike s s' u u' hagree hev

theorem execute_alike (c : Cfg) (d : CommandDescriptor) (s s' : State) (h : s.bus = s'.bus) :
    ActAlike s s' (execute c d s) (execute c d s') := by
  rcases Nat.lt_or_ge c.maxFrame (d.payload.length + 7) with hbig | hfits
  · rw [execute_of_oversize c d s hbig, execute_of_oversize c d s' hbig]
    exact ⟨rfl, .refl s s', h⟩
  · rw [execute_of_fits c d s hfits, execute_of_fits c d s' hfits]
    obtain ⟨hresult, hevents, hbus⟩ := attemptLoop_alike c d.texec c.maxAttempts
      { s with opActive := some .execute, engState := .idle, attempt := 0, txbuf := commandFrame c d
               held := { s.held with tx := true } }
      { s' with opActive := some .execute, engState := .idle, attempt := 0, txbuf := commandFrame c d
                held := { s'.held with tx := true } } ⟨rfl, rfl, h⟩
    exact ⟨hresult, hevents, hbus⟩

theorem serialize_alike (c : Cfg) (d : CommandDescriptor) (s s' : State) (h : s.bus = s'.bus) :
    ActAlike s s' (serialize c d s) (serialize c d s') := by
  rcases Nat.lt_or_ge c.maxFrame (d.payload.length + 7) with hbig | hfits
  · rw [serialize_of_oversize c d s hbig, serialize_of_oversize c d s' hbig]
    exact ⟨rfl, .refl s s', h⟩
  · rw [serialize_of_fits c d s hfits, serialize_of_fits c d s' hfits]
    exact ⟨rfl, .refl s s', h⟩

theorem validate_alike (c : Cfg) (raw : Bytes) (cap : Nat) (s s' : State) (h : s.bus = s'.bus) :
    ActAlike s s' (validate c raw cap s) (validate c raw cap s') := by
  rw [validate_eq, validate_eq]
  exact ⟨rfl, .refl s s', h⟩

theorem crCompute_alike (c : Cfg) (challenge key : Bytes) (mode : Byte) (param2 : Byte2)
    (otp8 otp3 sn4 sn23 : Bytes) (s s' : State) (h : s.bus = s'.bus) :
    ActAlike s s' (crCompute c challenge key mode param2 otp8 otp3 sn4 sn23 s)
      (crCompute c challenge key mode param2 otp8 otp3 sn4 sn23 s') := by
  cases he : crComputeError challenge key otp8 otp3 sn4 sn23 with
  | some p =>
    rw [crCompute_of_error (h := he), crCompute_of_error (h := he)]
    exact ⟨rfl, .refl s s', h⟩
  | none =>
    rw [crCompute_of_lengths (h := he), crCompute_of_lengths (h := he)]
    exact ⟨rfl, ⟨_, rfl, rfl⟩, h⟩

theorem crVerify_alike (c : Cfg) (challenge expected key : Bytes) (slot : Nat) (s s' : State)
    (h : s.bus = s'.bus) :
    ActAlike s s' (crVerify c challenge expected key slot s) (crVerify c challenge expected key slot s') := by
  cases he : crVerifyError challenge expected key slot with
  | some p =>
    rw [crVerify_of_error (h := he), crVerify_of_error (h := he)]
    exact ⟨rfl, .refl s s', h⟩
  | none =>
    rw [crVerify_of_operands (h := he), crVerify_of_operands (h := he)]
    exact ⟨rfl, ⟨_, rfl, rfl⟩, h⟩

theorem exec_alike (i : Instr) (s s' : State) (h : s.bus = s'.bus) :
    ∃ t t', exec i s = .next t ∧ exec i s' = .next t' ∧ ActAlike s s' t t' := by
  cases i with
  | serialize d => exact ⟨_, _, rfl, rfl, serialize_alike _ d s s' h⟩
  | execute d => exact ⟨_, _, rfl, rfl, execute_alike _ d s s' h⟩
  | validate raw cap => exact ⟨_, _, rfl, rfl, validate_alike _ raw cap s s' h⟩
  | crCompute challenge key mode param2 otp8 otp3 sn4 sn23 =>
    exact ⟨_, _, rfl, rfl, crCompute_alike _ challenge key mode param2 otp8 otp3 sn4 sn23 s s' h⟩
  | crVerify challenge expected key slot =>
    exact ⟨_, _, rfl, rfl, crVerify_alike _ challenge expected key slot s s' h⟩

/-- Settles O47: `exec_alike`, whose one real case is EXECUTE, where the loops of the two runs go in step. -/
theorem noStateBetweenOperations : Obligations.NoStateBetweenOperations := by
  intro i s s' h
  obtain ⟨t, t', hexec, hexec', hresult, ⟨events, htrace, htrace'⟩, hbus⟩ := exec_alike i s s' h
  exact ⟨t, t', events, hexec, hexec', hresult, htrace, htrace', hbus⟩

end Sys2Proof.Machine
end

section
/-! What the HOST's reads find, and what is refused while an operation is active (R39, R46, R47). -/

namespace Sys2Proof.Machine

/-- A HOST read of RESULT in an idle state is `hostReadResult`, from the state with the move taken off. -/
theorem step_readResult (s : State) (rest : List HostMove) (ha : s.opActive = none)
    (hh : s.host = .readResult :: rest) : step s = hostReadResult { s with host := rest } := by
  simp only [step, stepOver, fetch, whenIdle, ha, hh]

/-- A HOST read of OP_ACTIVE in an idle state is `hostReadOpActive`, from the state with the move taken off. -/
theorem step_readOpActive (s : State) (rest : List HostMove) (ha : s.opActive = none)
    (hh : s.host = .readOpActive :: rest) : step s = .next (hostReadOpActive { s with host := rest }) := by
  simp only [step, stepOver, fetch, whenIdle, ha, hh]

theorem hostReadResult_of_none (s : State) (h : s.result = none) : hostReadResult s = .fault .resultNotValid := by
  simp only [hostReadResult, h]

theorem hostReadResult_of_some (s : State) (r : Result) (h : s.result = some r) :
    hostReadResult s = .next { s with delivered := s.delivered ++ [r] } := by
  simp only [hostReadResult, h]

/-- Settles O5: the read is `hostReadResult`, which asks only whether RESULT is valid. -/
theorem hostReadOfResult : Obligations.HostReadOfResult := by
  intro s rest hidle hmove
  rw [step_readResult s rest hidle hmove]
  exact ⟨fun hnone => hostReadResult_of_none _ hnone, fun r hsome => hostReadResult_of_some _ r hsome⟩

/-- Settles O6: the value read is OP_ACTIVE's own, which is NONE whenever the HOST has the move. -/
theorem hostReadOfOpActive : Obligations.HostReadOfOpActive := by
  intro s rest hidle hmove
  rw [step_readOpActive s rest hidle hmove, hostReadOpActive, hidle]

/-- Settles O8: `fetch_active` refuses every move but a reset, and a step passes the refusal on. -/
theorem nothingAdmittedWhileActive : Obligations.NothingAdmittedWhileActive := by
  intro s op hactive hnoReset
  simp only [step, stepOver, fetch_active s op hactive hnoReset]

end Sys2Proof.Machine
end

section
/-! The port events of each operation, and what the challenge-response operations owe to their operands alone (R84,
R89, R254, R265). -/

namespace Sys2Proof.Machine

/-- R89, R254, R265: whatever state `run` starts from, it writes the record `r` and uses no answer of the BUS, and its
`events` are none or one HASH of an 88-byte message, answered with the message's digest. -/
structure HashesOperandsAlone (c : Cfg) (run : State → State) (r : Result) (events : List Event) : Prop where
  result  : ∀ s, (run s).result = some r
  trace   : ∀ s, (run s).trace = s.trace ++ events
  bus     : ∀ s, (run s).bus = s.bus
  oneHash : events = [] ∨ ∃ m, m.length = 88 ∧ events = [.hash m (c.digest m).toList]

/-- Which of R251's checks fails, and else the message, is settled by the operands before the state is looked at. -/
theorem crCompute_hashesOperandsAlone (c : Cfg) (challenge key : Bytes) (mode : Byte) (param2 : Byte2)
    (otp8 otp3 sn4 sn23 : Bytes) :
    ∃ r events, HashesOperandsAlone c (crCompute c challenge key mode param2 otp8 otp3 sn4 sn23) r events := by
  cases h : crComputeError challenge key otp8 otp3 sn4 sn23 with
  | some p =>
    have heq := fun s => crCompute_of_error c challenge key mode param2 otp8 otp3 sn4 sn23 p s h
    exact ⟨_, [], fun s => by rw [heq], fun s => by simp [heq], fun s => by rw [heq], .inl rfl⟩
  | none =>
    obtain ⟨hc, hk, h8, h3, h4, h2⟩ := (crComputeError_eq_none_iff ..).1 h
    have hm := crMessage_length c challenge key mode param2 otp8 otp3 sn4 sn23 hc hk h8 h3 h4 h2
    have heq := fun s => crCompute_of_lengths c challenge key mode param2 otp8 otp3 sn4 sn23 s h
    exact ⟨_, _, fun s => by rw [heq], fun s => by rw [heq], fun s => by rw [heq], .inr ⟨_, hm, rfl⟩⟩

/-- As for CR_COMPUTE, by the checks of R261 and R263; the compare that follows the digest reads the digest and an operand. -/
theorem crVerify_hashesOperandsAlone (c : Cfg) (challenge expected key : Bytes) (slot : Nat) :
    ∃ r events, HashesOperandsAlone c (crVerify c challenge expected key slot) r events := by
  cases h : crVerifyError challenge expected key slot with
  | some p =>
    have heq := fun s => crVerify_of_error c challenge expected key slot p s h
    exact ⟨_, [], fun s => by rw [heq], fun s => by simp [heq], fun s => by rw [heq], .inl rfl⟩
  | none =>
    obtain ⟨-, hc, hk, -⟩ := (crVerifyError_eq_none_iff ..).1 h
    have hm := crVerifyMessage_length c challenge key slot hc hk
    have heq := fun s => crVerify_of_operands c challenge expected key slot s h
    exact ⟨_, _, fun s => by rw [heq], fun s => by rw [heq], fun s => by rw [heq], .inr ⟨_, hm, rfl⟩⟩

theorem exec_hashesOperandsAlone (i : Instr) (h : i.op = .crCompute ∨ i.op = .crVerify) :
    ∃ run r events, (∀ s, exec i s = .next (run s)) ∧ HashesOperandsAlone Config.cfg run r events := by
  cases i with
  | crCompute challenge key mode param2 otp8 otp3 sn4 sn23 =>
    obtain ⟨r, events, hash⟩ := crCompute_hashesOperandsAlone Config.cfg challenge key mode param2 otp8 otp3 sn4 sn23
    exact ⟨_, r, events, fun _ => rfl, hash⟩
  | crVerify challenge expected key slot =>
    obtain ⟨r, events, hash⟩ := crVerify_hashesOperandsAlone Config.cfg challenge expected key slot
    exact ⟨_, r, events, fun _ => rfl, hash⟩
  | serialize | execute | validate => simp [Instr.op] at h

/-- Settles O42: both runs are of one function of the state, whose record and events `exec_hashesOperandsAlone` fixes
before it names a state. -/
theorem challengeResponseIsPure : Obligations.ChallengeResponseIsPure := by
  intro i s s' hop
  obtain ⟨run, r, events, hexec, hash⟩ := exec_hashesOperandsAlone i hop
  have hresult : (run s).result = (run s').result := (hash.result s).trans (hash.result s').symm
  exact ⟨run s, run s', events, hexec s, hexec s', hresult, hash.trace s, hash.trace s', hash.bus s, hash.bus s'⟩

/-- R152: SERIALIZE issues no event, whether the payload fits or not. -/
theorem serialize_trace (c : Cfg) (d : CommandDescriptor) (s : State) : (serialize c d s).trace = s.trace := by
  rcases Nat.lt_or_ge c.maxFrame (d.payload.length + 7) with hbig | hfits
  · rw [serialize_of_oversize c d s hbig]
  · rw [serialize_of_fits c d s hfits]

/-- R84, R220: VALIDATE issues no event. -/
theorem validate_trace (c : Cfg) (raw : Bytes) (cap : Nat) (s : State) :
    (validate c raw cap s).trace = s.trace := by
  rw [validate_eq]

/-- R183, R184: an attempt writes, waits and reads. -/
theorem Attempt.hash_not_mem {c : Cfg} {frame : Bytes} {texec : Nat} {events : List Event} {st : DeviceStatus}
    {payload : Bytes} (h : Attempt c frame texec events st payload) (m d : Bytes) : .hash m d ∉ events := by
  cases h with
  | shortWrite => simp
  | complete => simp

/-- R189, R190: between its attempts a sequence only wakes. -/
theorem Attempts.hash_not_mem {c : Cfg} {frame : Bytes} {texec left k : Nat} {events : List Event}
    {outcome : LibOutcome} {payload : Bytes} (h : Attempts c frame texec left k events outcome payload)
    (m d : Bytes) : .hash m d ∉ events := by
  induction h with
  | success _ _ _ h => exact h.hash_not_mem m d
  | terminal _ _ _ _ h _ => exact h.hash_not_mem m d
  | exhausted _ _ _ h _ => exact h.hash_not_mem m d
  | again _ _ _ _ _ _ _ _ _ h _ _ ih => simp [h.hash_not_mem m d, ih]

/-- R180 to R192: EXECUTE of a payload that fits is one sequence of at most `MAX_ATTEMPTS` attempts: its whole next
state. -/
theorem execute_spec (c : Cfg) (d : CommandDescriptor) (s : State) (hpos : 1 ≤ c.maxAttempts)
    (hfits : d.payload.length + 7 ≤ c.maxFrame) :
    ∃ k events outcome payload,
      Attempts c (commandFrame c d) d.texec c.maxAttempts k events outcome payload ∧
      ∃ bus, execute c d s = { s with
        opActive := none, engState := if outcome = .success then .success else .fatalFailure
        attempt := k, txbuf := [], rxbuf := [], held := { s.held with tx := false, rx := false }
        bus := bus, trace := s.trace ++ events
        result := some { Result.blank .execute with outcome := outcome, payload := payload, attempts := k } } := by
  obtain ⟨fuel, hfuel⟩ : ∃ fuel, c.maxAttempts = fuel + 1 := ⟨c.maxAttempts - 1, by omega⟩
  obtain ⟨k, events, outcome, payload, hattempts, bus, hloop⟩ := attemptLoop_spec c d.texec fuel { s with
    opActive := some .execute, engState := .idle, attempt := 0, txbuf := commandFrame c d
    held := { s.held with tx := true } } (by simp [hfuel])
  simp only [← hfuel, Nat.zero_add] at hattempts hloop
  exact ⟨k, events, outcome, payload, hattempts, bus, by rw [execute_of_fits c d s hfits, hloop]⟩

/-- R84: EXECUTE issues no HASH event. -/
theorem execute_trace_noHash (c : Cfg) (d : CommandDescriptor) (s : State) (hpos : 1 ≤ c.maxAttempts) :
    ∃ events, (execute c d s).trace = s.trace ++ events ∧ ∀ m h, .hash m h ∉ events := by
  rcases Nat.lt_or_ge c.maxFrame (d.payload.length + 7) with hbig | hfits
  · rw [execute_of_oversize c d s hbig]
    exact ⟨[], by simp⟩
  · obtain ⟨k, events, outcome, payload, hattempts, bus, heq⟩ := execute_spec c d s hpos hfits
    rw [heq]
    exact ⟨events, rfl, hattempts.hash_not_mem⟩

/-- Settles O49, by the three kinds of operation: no port, the BUS and the TIMER, the HASH port. -/
theorem eventsOfEachOperation : Obligations.EventsOfEachOperation := by
  intro i s
  cases i with
  | serialize d => exact ⟨_, [], rfl, by simp [serialize_trace], by simp [Instr.op]⟩
  | validate raw cap => exact ⟨_, [], rfl, by simp [validate_trace], by simp [Instr.op]⟩
  | execute d =>
    obtain ⟨events, htrace, hnoHash⟩ := execute_trace_noHash Config.cfg d s Config.validCfg.maxAttempts_pos
    exact ⟨_, events, rfl, htrace, by simpa [Instr.op] using hnoHash⟩
  | crCompute challenge key mode param2 otp8 otp3 sn4 sn23 =>
    obtain ⟨r, events, hash⟩ := crCompute_hashesOperandsAlone Config.cfg challenge key mode param2 otp8 otp3 sn4 sn23
    exact ⟨_, events, rfl, hash.trace s, by simpa [Instr.op] using hash.oneHash⟩
  | crVerify challenge expected key slot =>
    obtain ⟨r, events, hash⟩ := crVerify_hashesOperandsAlone Config.cfg challenge expected key slot
    exact ⟨_, events, rfl, hash.trace s, by simpa [Instr.op] using hash.oneHash⟩

end Sys2Proof.Machine
end

section
/-! The HOST's own use of the bus (R81, R318), and checked reads of the buffers (R71, R72, R310). -/

namespace Sys2Proof.Machine

/-- Any use the HOST makes of the bus in an idle state is `hostUseBus`, from the state with the move taken off. -/
theorem step_useBus (s : State) (use : HostBusUse) (rest : List HostMove) (ha : s.opActive = none)
    (hh : s.host = .useBus use :: rest) : step s = .next (hostUseBus use { s with host := rest }) := by
  simp only [step, stepOver, fetch, whenIdle, ha, hh]

/-- Settles O10: `hostUseBus` gives back the state it is given. -/
theorem hostBusUseLeavesBlock : Obligations.HostBusUseLeavesBlock := by
  intro s use rest hidle hmove
  rw [step_useBus s use rest hidle hmove, hostUseBus]

/-- A checked read of a buffer depends on that buffer's own held flag and contents alone. -/
theorem readBuffer_congr (b : Buffer) (s t : State) (hheld : s.held.has b = t.held.has b)
    (hcontents : s.contents b = t.contents b) : readBuffer b s = readBuffer b t := by
  simp only [readBuffer, hheld, hcontents]

theorem readBuffer_releaseTx_of_ne (b : Buffer) (s : State) (h : b ≠ .tx) :
    readBuffer b (releaseTx s) = readBuffer b s := by
  cases b with
  | tx => exact absurd rfl h
  | rx | msg | dig => exact readBuffer_congr _ _ _ rfl rfl

theorem readBuffer_releaseRx_of_ne (b : Buffer) (s : State) (h : b ≠ .rx) :
    readBuffer b (releaseRx s) = readBuffer b s := by
  cases b with
  | rx => exact absurd rfl h
  | tx | msg | dig => exact readBuffer_congr _ _ _ rfl rfl

theorem readBuffer_releaseMsgDig_of_ne (b : Buffer) (s : State) (hm : b ≠ .msg) (hd : b ≠ .dig) :
    readBuffer b (releaseMsgDig s) = readBuffer b s := by
  cases b with
  | msg => exact absurd rfl hm
  | dig => exact absurd rfl hd
  | tx | rx => exact readBuffer_congr _ _ _ rfl rfl

/-- Settles O54: a fill sets the buffer's held flag, so `readBuffer_held` gives the contents; a release clears it, so
`readBuffer_fault_iff` gives the fault; and a release touches no other buffer's flag or contents. -/
theorem releasedBufferReadFaults : Obligations.ReleasedBufferReadFaults := by
  intro s x y
  refine ⟨⟨?_, ?_, ?_, ?_⟩, ⟨?_, ?_, ?_, ?_⟩, fun b => readBuffer_releaseTx_of_ne b s,
    fun b => readBuffer_releaseRx_of_ne b s, fun b => readBuffer_releaseMsgDig_of_ne b s⟩
  · exact readBuffer_held .tx (fillTx x s) rfl
  · exact readBuffer_held .rx (fillRx x s) rfl
  · exact readBuffer_held .msg (fillMsg x s) rfl
  · exact readBuffer_held .dig (fillDig x s) rfl
  · exact (readBuffer_fault_iff .tx _).2 rfl
  · exact (readBuffer_fault_iff .rx _).2 rfl
  · exact (readBuffer_fault_iff .msg _).2 rfl
  · exact (readBuffer_fault_iff .dig _).2 rfl

end Sys2Proof.Machine
end

section
/-! The request format (R100 to R103, in the transport form of log entry 3): the decoder and the encoder agree, and
what the reserved OPSELs do. -/

namespace Sys2Proof

/-- R103: the operand record of every well-formed request is read back whole. -/
theorem readOperands_encodeOperands (i : Instr) (rest : Bytes) (h : i.wellFormed = true) :
    readOperands i.op (encodeOperands i ++ rest) = .ok (i, rest) := by
  cases i with
  | serialize d => exact Laws.OperandRecord.serialize d h rest
  | execute d => exact Laws.OperandRecord.execute d h rest
  | validate raw cap => exact Laws.OperandRecord.validate raw cap h rest
  | crCompute challenge key mode param2 otp8 otp3 sn4 sn23 =>
    exact Laws.OperandRecord.crCompute challenge key mode param2 otp8 otp3 sn4 sn23 h rest
  | crVerify challenge expected key slot => exact Laws.OperandRecord.crVerify challenge expected key slot h rest

/-- R103: what reads as the operand record of an operation is a well-formed request of that operation, written out by
the encoder. -/
theorem readOperands_ok (op : OpName) (s rest : Bytes) (i : Instr) (h : readOperands op s = .ok (i, rest)) :
    i.op = op ∧ i.wellFormed = true ∧ s = encodeOperands i ++ rest := by
  cases op with
  | serialize =>
    obtain ⟨⟨d, s₁⟩, hd, h⟩ := except_bind_ok _ _ _ h
    cases h
    exact ⟨rfl, rfl, readDescriptor_ok _ _ _ hd⟩
  | execute =>
    obtain ⟨⟨d, s₁⟩, hd, h⟩ := except_bind_ok _ _ _ h
    cases h
    exact ⟨rfl, rfl, readDescriptor_ok _ _ _ hd⟩
  | validate =>
    obtain ⟨⟨raw, s₁⟩, hraw, h⟩ := except_bind_ok _ _ _ h
    obtain ⟨⟨cap, s₂⟩, hcap, h⟩ := except_bind_ok _ _ _ h
    cases h
    obtain ⟨rfl, hle⟩ := readSmall_ok _ _ _ hcap
    exact ⟨rfl, decide_eq_true hle, by simp [readBytes_ok _ _ _ hraw, encodeOperands]⟩
  | crCompute =>
    obtain ⟨⟨challenge, s₁⟩, hchallenge, h⟩ := except_bind_ok _ _ _ h
    obtain ⟨⟨key, s₂⟩, hkey, h⟩ := except_bind_ok _ _ _ h
    obtain ⟨⟨mode, s₃⟩, hmode, h⟩ := except_bind_ok _ _ _ h
    obtain ⟨⟨param2, s₄⟩, hparam2, h⟩ := except_bind_ok _ _ _ h
    obtain ⟨⟨otp8, s₅⟩, hotp8, h⟩ := except_bind_ok _ _ _ h
    obtain ⟨⟨otp3, s₆⟩, hotp3, h⟩ := except_bind_ok _ _ _ h
    obtain ⟨⟨sn4, s₇⟩, hsn4, h⟩ := except_bind_ok _ _ _ h
    obtain ⟨⟨sn23, s₈⟩, hsn23, h⟩ := except_bind_ok _ _ _ h
    cases h
    refine ⟨rfl, rfl, ?_⟩
    rw [readBytes_ok _ _ _ hchallenge, readBytes_ok _ _ _ hkey, readByte_ok _ _ _ hmode, readByte2_ok _ _ _ hparam2,
      readBytes_ok _ _ _ hotp8, readBytes_ok _ _ _ hotp3, readBytes_ok _ _ _ hsn4, readBytes_ok _ _ _ hsn23]
    simp [encodeOperands]
  | crVerify =>
    obtain ⟨⟨challenge, s₁⟩, hchallenge, h⟩ := except_bind_ok _ _ _ h
    obtain ⟨⟨expected, s₂⟩, hexpected, h⟩ := except_bind_ok _ _ _ h
    obtain ⟨⟨key, s₃⟩, hkey, h⟩ := except_bind_ok _ _ _ h
    obtain ⟨⟨slot, s₄⟩, hslot, h⟩ := except_bind_ok _ _ _ h
    cases h
    obtain ⟨rfl, hle⟩ := readSmall_ok _ _ _ hslot
    refine ⟨rfl, decide_eq_true hle, ?_⟩
    rw [readBytes_ok _ _ _ hchallenge, readBytes_ok _ _ _ hexpected, readBytes_ok _ _ _ hkey]
    simp [encodeOperands]

/-- R101: an operation's OPSEL hands the rest of the string to that operation's operand record. -/
theorem decode_opsel_cons (op : OpName) (s : Bytes) : decode (op.opsel :: s) = readOperands op s := by
  simp only [decode, selectOp_opsel]

/-- R102: an OPSEL that selects no operation is rejected by name, whatever follows it. -/
theorem decode_of_reserved (b : Byte) (s : Bytes) (h : selectOp b = none) :
    decode (b :: s) = .error (.reservedOpsel b) := by
  simp only [decode, h]

/-- R100, R101: what decodes begins with some operation's OPSEL, and the rest reads as its operand record. -/
theorem decode_ok (bytes rest : Bytes) (i : Instr) (h : decode bytes = .ok (i, rest)) :
    ∃ op s, bytes = OpName.opsel op :: s ∧ readOperands op s = .ok (i, rest) := by
  cases bytes with
  | nil => cases h
  | cons b s =>
    cases hop : selectOp b with
    | none => rw [decode_of_reserved b s hop] at h; cases h
    | some op =>
      obtain rfl := opsel_of_selectOp b op hop
      exact ⟨op, s, rfl, (decode_opsel_cons op s).symm.trans h⟩

/-- Settles O11: the OPSEL selects the request's operation, whose operand record reads back
(`readOperands_encodeOperands`, by the five operations). -/
theorem decodeOfEncode : Obligations.DecodeOfEncode := by
  intro i rest hwf
  calc decode (encode i ++ rest)
      = readOperands i.op (encodeOperands i ++ rest) := decode_opsel_cons i.op _
    _ = .ok (i, rest) := readOperands_encodeOperands i rest hwf

/-- Settles O12: the OPSEL byte is that of the operation it selects, and `readOperands_ok` gives the bytes after it. -/
theorem encodeOfDecode : Obligations.EncodeOfDecode := by
  intro bytes rest i h
  obtain ⟨op, s, rfl, hread⟩ := decode_ok bytes rest i h
  obtain ⟨rfl, hwf, rfl⟩ := readOperands_ok op s rest i hread
  exact ⟨hwf, rfl⟩

/-- Settles O13, by running the decoder on the six strings. -/
theorem tableWordsDecode : Obligations.TableWordsDecode := by
  refine ⟨?_, ?_, ?_, ?_, ?_, ?_⟩ <;> decide

/-- R102: the OPSELs that select no operation are those outside the table of R101. -/
theorem selectOp_eq_none_iff (b : Byte) : selectOp b = none ↔ b = 0x00 ∨ 0x06 ≤ b.toNat := by
  have htable : selectOp b = none ↔ b ≠ 0x01 ∧ b ≠ 0x02 ∧ b ≠ 0x03 ∧ b ≠ 0x04 ∧ b ≠ 0x05 := by
    unfold selectOp
    split_ifs <;> simp_all
  rw [htable]
  simp only [ne_eq, BitVec.toNat_eq, BitVec.reduceToNat]
  omega

namespace Machine

/-- R102, R103: in an idle state, a request that does not decode is refused with the reason. -/
theorem step_request_error (s : State) (bytes : Bytes) (rest : List HostMove) (e : DecodeError)
    (hidle : s.opActive = none) (hmove : s.host = .request bytes :: rest) (he : decodeRequest bytes = .error e) :
    step s = .refused (refusalOf e) := by
  simp only [step, stepOver, fetch, whenIdle, hidle, hmove, he]

/-- Settles O7: the reserved values are those outside the table (`selectOp_eq_none_iff`), the decoder rejects them by
name, and a step refuses what the decoder rejects. -/
theorem reservedOpselRefused : Obligations.ReservedOpselRefused := by
  refine ⟨selectOp_eq_none_iff, fun s b operands rest hb hidle hmove => ?_⟩
  have hdecode : decodeRequest (b :: operands) = .error (.reservedOpsel b) := by
    rw [decodeRequest, decode_of_reserved b operands ((selectOp_eq_none_iff b).2 hb)]
  exact step_request_error s _ rest _ hidle hmove hdecode

end Machine
end Sys2Proof
end

section
/-! SERIALIZE: the command frame it builds (R111 to R114, R150). -/

namespace Sys2Proof.Machine

/-- Settles O14: `serialize_of_fits` gives the whole next state, with R111's `commandFrame` for the frame. -/
theorem serializeBuildsFrame : Obligations.SerializeBuildsFrame := by
  intro d s hfits hdr
  have hhead : frameHead d = hdr := rfl
  have hframe : commandFrame Config.cfg d = hdr ++ [(Config.cfg.checksum hdr).b0, (Config.cfg.checksum hdr).b1] := by
    rw [commandFrame, hhead]; rfl
  rw [← hframe]
  exact congrArg Host.Outcome.next (serialize_of_fits Config.cfg d s hfits)

/-- Settles O16: the frame has N + 7 bytes (`commandFrame_length`), R10 bounds that by 255, and so the length byte
holds it (`frameLengthByte`). -/
theorem frameLengthByteIsExact : Obligations.FrameLengthByteIsExact := by
  intro d s hfits
  have h255 : d.payload.length + 7 ≤ 255 := hfits.trans Config.validCfg.maxFrame_le
  have hlength := commandFrame_length Config.cfg d
  refine ⟨_, _, _, _, congrArg Host.Outcome.next (serialize_of_fits Config.cfg d s hfits), rfl, rfl,
    (frameLengthByte d h255).trans hlength.symm, hlength, ?_, ?_⟩
  · exact hlength ▸ Nat.le_add_left 7 _
  · exact hlength ▸ h255

end Sys2Proof.Machine
end

section
/-! VALIDATE: what a good response frame is read as (R115, R116, R120 to R123, R228). -/

namespace Sys2Proof.Machine

/-- Settles O55, by the eight statuses. -/
theorem statusOutcomeOfSameName : Obligations.StatusOutcomeOfSameName := by
  refine ⟨rfl, rfl, rfl, rfl, rfl, rfl, rfl, rfl, fun st => ?_⟩
  cases st <;> decide

/-- R228: a one-byte body to which `STATUS_MAP` gives a status. -/
theorem interpretBody_of_status (c : Cfg) (b : Byte) (st : DeviceStatus) (h : c.statusMap b = some st) :
    interpretBody c [b] = (st, []) := by
  simp only [interpretBody, h]

/-- R228: a one-byte body to which `STATUS_MAP` gives no status. -/
theorem interpretBody_of_no_status (c : Cfg) (b : Byte) (h : c.statusMap b = none) :
    interpretBody c [b] = (.commError, []) := by
  simp only [interpretBody, h]

/-- R115, R225: VALIDATE of a response frame within the capacity reports the meaning of its body and changes nothing
else but RXBUF, which it releases. -/
theorem exec_validate_responseFrame (body junk : Bytes) (cap : Nat) (s : State) (h1 : 1 ≤ body.length)
    (hcap : body.length + 3 ≤ cap) (h255 : body.length + 3 ≤ 255) :
    exec (.validate (responseFrame Config.cfg body ++ junk) cap) s = .next { s with
      opActive := none, rxbuf := [], held := { s.held with rx := false }
      result := some { Result.blank .validate with
        outcome := outcomeOf (interpretBody Config.cfg body).1, payload := (interpretBody Config.cfg body).2 } } := by
  rw [← validateFn_responseFrame Config.cfg body junk cap h1 hcap h255]
  exact congrArg Host.Outcome.next (validate_eq Config.cfg _ cap s)

/-- R228: the frame whose body is one byte that `STATUS_MAP` gives a status. -/
theorem exec_validate_status (b : Byte) (st : DeviceStatus) (cap : Nat) (s : State)
    (hstatus : Config.cfg.statusMap b = some st) (hcap : 4 ≤ cap) :
    exec (.validate (responseFrame Config.cfg [b]) cap) s = .next { s with
      opActive := none, rxbuf := [], held := { s.held with rx := false }
      result := some { Result.blank .validate with outcome := outcomeOf st } } := by
  have h := exec_validate_responseFrame [b] [] cap s (by simp) hcap (by simp)
  rwa [List.append_nil, interpretBody_of_status _ b st hstatus] at h

/-- Settles O21: the input is a response frame and what follows it, so the record is the meaning of the body
(`exec_validate_responseFrame`); then R228's three cases of a body. -/
theorem validateReadsFrame : Obligations.ValidateReadsFrame := by
  intro body junk cap s h1 hcap h255 head
  refine (exec_validate_responseFrame body junk cap s h1 hcap h255).trans ?_
  match body with
  | [] => simp at h1
  | [b] =>
    cases hstatus : Config.cfg.statusMap b with
    | none => rw [interpretBody_of_no_status _ b hstatus]; simp [hstatus, outcomeOf, Result.blank]
    | some st => rw [interpretBody_of_status _ b st hstatus]; cases st <;> simp [hstatus, outcomeOf, Result.blank]
  | _ :: _ :: _ => simp [interpretBody, outcomeOf, Result.blank]

/-- Settles O25, by `exec_validate_status` with the two bytes R10 fixes in `STATUS_MAP`. -/
theorem sourceStatusBytes : Obligations.SourceStatusBytes := by
  intro cap s hcap
  exact ⟨exec_validate_status 0x00 .success cap s Config.validCfg.status_zero hcap,
    exec_validate_status 0xAA .nak cap s Config.validCfg.status_nak hcap⟩

end Sys2Proof.Machine
end

section
/-! CR_COMPUTE and CR_VERIFY: the message they hash (R130), and that the second is the first and then a compare
(R105). -/

namespace Sys2Proof.Machine

/-- Settles O35: the one event hashes `crMessage`, and the lengths of the fields before each offset add up to it, so
that dropping to the offset leaves nothing of them. -/
theorem crMessageLayout : Obligations.CrMessageLayout := by
  intro challenge key mode param2 otp8 otp3 sn4 sn23 s hchallenge hkey hotp8 hotp3 hsn4 hsn23
  have hchecks := (crComputeError_eq_none_iff challenge key otp8 otp3 sn4 sn23).2
    ⟨hchallenge, hkey, hotp8, hotp3, hsn4, hsn23⟩
  have hlength := crMessage_length Config.cfg challenge key mode param2 otp8 otp3 sn4 sn23 hchallenge hkey hotp8
    hotp3 hsn4 hsn23
  refine ⟨_, _, _, congrArg Host.Outcome.next (crCompute_of_lengths (h := hchecks) ..), rfl, hlength, ?_⟩
  simp (disch := omega) [crMessage, Byte2.toBytes, List.drop_append, List.drop_eq_nil_of_le, List.getElem?_append,
    List.getElem?_cons, hchallenge, hkey, hotp8, hotp3, hsn4]

/-- Settles O41: CR_VERIFY hashes CR_COMPUTE's message at R105's default fields, and its fixed-time compare of the
digest with an expected response as long as the digest tells equality (`fixedTimeCompare_fst`). -/
theorem verifyIsComputeThenCompare : Obligations.VerifyIsComputeThenCompare := by
  intro challenge expected key slot s s' hslot hchallenge hkey hexpected
  have hcompute := (crComputeError_eq_none_iff challenge key (zeros 8) (zeros 3) (zeros 4) (zeros 2)).2
    ⟨hchallenge, hkey, rfl, rfl, rfl, rfl⟩
  have hverify := (crVerifyError_eq_none_iff challenge expected key slot).2 ⟨hslot, hchallenge, hkey, hexpected⟩
  refine ⟨_, _, _, _, _, _, congrArg Host.Outcome.next (crCompute_of_lengths (h := hcompute) ..), rfl, rfl,
    congrArg Host.Outcome.next (crVerify_of_operands (h := hverify) ..), rfl, rfl, rfl, rfl, congrArg some ?_⟩
  exact fixedTimeCompare_fst _ expected (by simp [hexpected])

end Sys2Proof.Machine
end

section
/-! SERIALIZE: its record depends on the frame's fields alone (R151, R153), and its frame parses back
(R154). -/

namespace Sys2Proof.Machine

/-- Settles O15, by `serialize_of_oversize`. -/
theorem serializeOversize : Obligations.SerializeOversize := by
  intro d s hbig
  exact congrArg Host.Outcome.next (serialize_of_oversize Config.cfg d s hbig)

/-- R150, R151: the record SERIALIZE writes, in which neither the state nor `texec` occurs. -/
theorem serialize_result (c : Cfg) (d : CommandDescriptor) (s : State) :
    (serialize c d s).result = some
      (if d.payload.length + 7 ≤ c.maxFrame then { Result.blank .serialize with frame := commandFrame c d }
       else { Result.blank .serialize with outcome := .programmingError, reason := some .oversize }) := by
  rcases Nat.lt_or_ge c.maxFrame (d.payload.length + 7) with hbig | hfits
  · rw [serialize_of_oversize c d s hbig, if_neg (Nat.not_le.2 hbig)]
  · rw [serialize_of_fits c d s hfits, if_pos hfits]

/-- R111 to R114: the frame is made of the opcode, the parameters and the payload. -/
theorem commandFrame_congr (c : Cfg) {d d' : CommandDescriptor} (hopcode : d.opcode = d'.opcode)
    (hparam1 : d.param1 = d'.param1) (hparam2 : d.param2 = d'.param2) (hpayload : d.payload = d'.payload) :
    commandFrame c d = commandFrame c d' := by
  simp only [commandFrame, frameHead, hopcode, hparam1, hparam2, hpayload]

/-- Settles O19: `serialize_result` names the payload's length and the frame, which is one for both descriptors
(`commandFrame_congr`). -/
theorem serializeDependsOnFrameFieldsAlone : Obligations.SerializeDependsOnFrameFieldsAlone := by
  intro d d' s s' hopcode hparam1 hparam2 hpayload
  refine ⟨_, _, rfl, rfl, ?_⟩
  rw [serialize_result, serialize_result, commandFrame_congr Config.cfg hopcode hparam1 hparam2 hpayload, hpayload]

/-- R124: the parser undoes the frame's layout, when the length byte can hold the frame's length: its first N + 5 bytes
are the head and the last two the head's checksum. -/
theorem parseCommandFrame_commandFrame (c : Cfg) (d : CommandDescriptor) (h255 : d.payload.length + 7 ≤ 255) :
    parseCommandFrame c (commandFrame c d) = some ⟨d.opcode, d.param1, d.param2, d.payload⟩ := by
  have hlen := frameLengthByte d h255
  have htake : (commandFrame c d).take ((commandFrame c d).length - 2) = frameHead d := by simp [commandFrame]
  have hdrop : (commandFrame c d).drop ((commandFrame c d).length - 2) = checksumBytes c (frameHead d) := by
    simp [commandFrame]
  have hlong : ¬ ((commandFrame c d).length < frameOverhead ∨
      (BitVec.ofNat 8 (d.payload.length + frameOverhead)).toNat ≠ (commandFrame c d).length) := by
    rw [hlen, commandFrame_length, frameOverhead]; omega
  have hcons : commandFrame c d = BitVec.ofNat 8 (d.payload.length + frameOverhead) :: d.opcode :: d.param1 ::
      d.param2.b0 :: d.param2.b1 :: (d.payload ++ checksumBytes c (frameHead d)) := rfl
  rw [hcons] at hlong htake hdrop ⊢
  simp only [parseCommandFrame, if_neg hlong, hdrop, htake, ne_eq, not_true_eq_false, if_false]
  rfl

/-- Settles O17, by `parseCommandFrame_commandFrame`: R10 bounds a frame that fits by 255 bytes. -/
theorem serializeRoundTrip : Obligations.SerializeRoundTrip := by
  intro d s hfits
  exact ⟨_, _, congrArg Host.Outcome.next (serialize_of_fits Config.cfg d s hfits), rfl,
    parseCommandFrame_commandFrame Config.cfg d (hfits.trans Config.validCfg.maxFrame_le)⟩

/-- A SUCCESS of SERIALIZE delivers the command frame of a payload that fits. -/
theorem serialize_success (d : CommandDescriptor) (s t : State) (r : Result) (h : exec (.serialize d) s = .next t)
    (hr : t.result = some r) (hsuccess : r.outcome = .success) :
    r.frame = commandFrame Config.cfg d ∧ d.payload.length + 7 ≤ Config.cfg.maxFrame := by
  cases h
  rw [serialize_result] at hr
  obtain rfl := Option.some.inj hr
  split at hsuccess
  case isTrue hfits => exact ⟨by rw [if_pos hfits], hfits⟩
  case isFalse => cases hsuccess

end Sys2Proof.Machine
end

section
/-! What the validator rejects (R222 to R226), a SERIALIZE frame altered in one byte among it (R155). -/

namespace Sys2Proof.Machine

/-- R222, R223, R224, R226: each check of the validator that fails is a COMM_ERROR with no payload. -/
theorem validateFn_of_failed_check (c : Cfg) (b : Byte) (r : Bytes) (cap : Nat)
    (h : b.toNat < 4 ∨ cap < b.toNat ∨ (b :: r).length < b.toNat ∨
      ((b :: r).take b.toNat).drop (b.toNat - 2) ≠ checksumBytes c ((b :: r).take (b.toNat - 2))) :
    validateFn c (b :: r) cap = (.commError, []) := by
  have htake : ((b :: r).take b.toNat).take (b.toNat - 2) = (b :: r).take (b.toNat - 2) := by
    rw [List.take_take, Nat.min_eq_left (Nat.sub_le _ _)]
  simp only [validateFn, htake]
  split_ifs with h4 hcap hshort hsum
  case neg => exact absurd h (by simp only [h4, hcap, hshort, hsum, or_self, not_false_eq_true])
  all_goals rfl

/-- R226: a frame that its length byte covers whole, with two bytes at its end that are not its checksum. -/
theorem validateFn_of_wrong_checksum (c : Cfg) (len : Byte) (body sum : Bytes) (cap : Nat) (hsum : sum.length = 2)
    (hlen : len.toNat = body.length + 3) (hne : sum ≠ checksumBytes c (len :: body)) :
    validateFn c (len :: body ++ sum) cap = (.commError, []) := by
  refine validateFn_of_failed_check c len (body ++ sum) cap (.inr (.inr (.inr ?_)))
  have hwhole : (len :: body ++ sum).length ≤ len.toNat := by simp [hsum, hlen]
  have hcovered : len.toNat - 2 = (len :: body).length := by simp [hlen]
  rwa [← List.cons_append, List.take_of_length_le hwhole, hcovered, List.drop_left, List.take_left]

/-- R220: VALIDATE of an input the validator rejects. -/
theorem exec_validate_commError (raw : Bytes) (cap : Nat) (s : State)
    (h : validateFn Config.cfg raw cap = (.commError, [])) :
    exec (.validate raw cap) s = .next { s with
      opActive := none, rxbuf := [], held := { s.held with rx := false }
      result := some { Result.blank .validate with outcome := .commError } } := by
  have heq := validate_eq Config.cfg raw cap s
  rw [h] at heq
  exact congrArg Host.Outcome.next heq

/-- R117 (c), for a string and the same with the byte at one index altered. -/
theorem detectsSingleByte_set_ne {f : Bytes → Byte2} (hf : Cfg.DetectsSingleByte f) (l : Bytes) (k : Nat) (b : Byte)
    (hk : k < l.length) (hb : l[k]? ≠ some b) : f l ≠ f (l.set k b) := by
  have hne : l[k] ≠ b := fun e => hb (by rw [List.getElem?_eq_getElem hk, e])
  have hsplit : l = l.take k ++ l[k] :: l.drop (k + 1) := by simp
  rw [List.set_eq_take_append_cons_drop, if_pos hk]
  conv_lhs => rw [hsplit]
  exact hf _ _ _ _ hne

/-- R155: a byte altered between the length byte and the checksum: the length byte still covers the whole frame, whose
checksum is that of the unaltered bytes. -/
theorem validateFn_alteredHead (c : Cfg) (hdetects : Cfg.DetectsSingleByte c.checksum) (d : CommandDescriptor)
    (h255 : d.payload.length + 7 ≤ 255) (k : Nat) (b : Byte) (cap : Nat) (hk : k + 1 < (frameHead d).length)
    (hb : (commandFrame c d)[k + 1]? ≠ some b) :
    validateFn c ((commandFrame c d).set (k + 1) b) cap = (.commError, []) := by
  have hlen := frameLengthByte d h255
  have hset : (commandFrame c d).set (k + 1) b = (frameHead d).set (k + 1) b ++ checksumBytes c (frameHead d) :=
    List.set_append_left _ _ hk
  have hsum : checksumBytes c (frameHead d) ≠ checksumBytes c ((frameHead d).set (k + 1) b) := by
    rw [commandFrame, List.getElem?_append_left hk] at hb
    exact fun e => detectsSingleByte_set_ne hdetects _ _ b hk hb (toBytes_inj _ _ e)
  rw [hset]
  exact validateFn_of_wrong_checksum c _ _ _ cap rfl (by rw [hlen, List.length_set]; simp [Byte2.toBytes]) hsum

/-- R155: an altered length byte, in `VALIDATE_FN`'s three checks of it. -/
theorem validateFn_alteredLength (c : Cfg) (d : CommandDescriptor) (b : Byte) (cap : Nat)
    (hb : (commandFrame c d).length < b.toNat ∨ cap < b.toNat ∨ b.toNat < 4) :
    validateFn c ((commandFrame c d).set 0 b) cap = (.commError, []) := by
  refine validateFn_of_failed_check c _ _ cap ?_
  rcases hb with hlong | hcap | hshort
  · exact .inr (.inr (.inl hlong))
  · exact .inr (.inl hcap)
  · exact .inl hshort

/-- Settles O18: SERIALIZE's SUCCESS delivers `commandFrame`. Altered before its checksum it no longer matches it
(`validateFn_alteredHead`); altered in the length byte it fails a check of the length (`validateFn_alteredLength`). -/
theorem alteredFrameIsCommError : Obligations.AlteredFrameIsCommError := by
  intro d s₀ t₀ s r₀ b hexec hresult hsuccess
  obtain ⟨hframe, hfits⟩ := serialize_success d s₀ t₀ r₀ hexec hresult hsuccess
  have h255 := hfits.trans Config.validCfg.maxFrame_le
  rw [hframe]
  refine ⟨fun k h1 hk hb => exec_validate_commError _ _ s ?_, fun cap hb => exec_validate_commError _ _ s ?_⟩
  · obtain ⟨j, rfl⟩ := Nat.exists_eq_add_of_le' h1
    have hj : j + 1 < (frameHead d).length := by simp at hk ⊢; omega
    exact validateFn_alteredHead Config.cfg Config.validCfg.detects d h255 j b 255 hj hb
  · exact validateFn_alteredLength Config.cfg d b cap hb

end Sys2Proof.Machine
end

section
/-! The frame of the operations that use no bus (R152, R220, R254, R265). -/

namespace Sys2Proof.Machine

/-- An operation `op` started in `s` and ended in `t` has left the engine, the BUS, what is the HOST's, and the buffers
and the compare log that are not its own. -/
structure LeavesOthers (op : OpName) (s t : State) : Prop where
  engine    : t.engState = s.engState ∧ t.attempt = s.attempt
  bus       : t.bus = s.bus
  host      : t.host = s.host ∧ t.delivered = s.delivered ∧ t.busyTests = s.busyTests
  tx        : op ≠ .serialize → t.txbuf = s.txbuf ∧ t.held.tx = s.held.tx
  rx        : op ≠ .validate → t.rxbuf = s.rxbuf ∧ t.held.rx = s.held.rx
  msgDig    : op = .serialize ∨ op = .validate →
    t.msgbuf = s.msgbuf ∧ t.digbuf = s.digbuf ∧ t.held.msg = s.held.msg ∧ t.held.dig = s.held.dig
  cmpLog    : op ≠ .crVerify → t.cmpLog = s.cmpLog

/-- R303: an operation ended by a programming error writes its record alone. -/
theorem leavesOthers_record (op : OpName) (r : Option Result) (s : State) :
    LeavesOthers op s { s with opActive := none, result := r } where
  engine := ⟨rfl, rfl⟩
  bus := rfl
  host := ⟨rfl, rfl, rfl⟩
  tx _ := ⟨rfl, rfl⟩
  rx _ := ⟨rfl, rfl⟩
  msgDig _ := ⟨rfl, rfl, rfl, rfl⟩
  cmpLog _ := rfl

theorem serialize_leavesOthers (c : Cfg) (d : CommandDescriptor) (s : State) :
    LeavesOthers .serialize s (serialize c d s) := by
  rcases Nat.lt_or_ge c.maxFrame (d.payload.length + 7) with hbig | hfits
  · rw [serialize_of_oversize c d s hbig]
    exact leavesOthers_record ..
  · rw [serialize_of_fits c d s hfits]
    exact {
      engine := ⟨rfl, rfl⟩
      bus := rfl
      host := ⟨rfl, rfl, rfl⟩
      tx := fun hne => absurd rfl hne
      rx := fun _ => ⟨rfl, rfl⟩
      msgDig := fun _ => ⟨rfl, rfl, rfl, rfl⟩
      cmpLog := fun _ => rfl }

theorem validate_leavesOthers (c : Cfg) (raw : Bytes) (cap : Nat) (s : State) :
    LeavesOthers .validate s (validate c raw cap s) := by
  rw [validate_eq]
  exact {
    engine := ⟨rfl, rfl⟩
    bus := rfl
    host := ⟨rfl, rfl, rfl⟩
    tx := fun _ => ⟨rfl, rfl⟩
    rx := fun hne => absurd rfl hne
    msgDig := fun _ => ⟨rfl, rfl, rfl, rfl⟩
    cmpLog := fun _ => rfl }

/-- R254, R265: a challenge-response operation whose operands are accepted uses MSGBUF, DIGBUF and the trace, and
CR_VERIFY the compare log too. -/
theorem leavesOthers_hashed (op : OpName) (hop : op = .crCompute ∨ op = .crVerify) (trace : List Event)
    (cmpLog : List CmpStep) (r : Option Result) (s : State) (hcmp : op ≠ .crVerify → cmpLog = s.cmpLog) :
    LeavesOthers op s { s with
      msgbuf := [], digbuf := [], held := { s.held with msg := false, dig := false }, opActive := none
      trace := trace, cmpLog := cmpLog, result := r } where
  engine := ⟨rfl, rfl⟩
  bus := rfl
  host := ⟨rfl, rfl, rfl⟩
  tx _ := ⟨rfl, rfl⟩
  rx _ := ⟨rfl, rfl⟩
  msgDig h := by rcases hop with rfl | rfl <;> simp at h
  cmpLog := hcmp

theorem crCompute_leavesOthers (c : Cfg) (challenge key : Bytes) (mode : Byte) (param2 : Byte2)
    (otp8 otp3 sn4 sn23 : Bytes) (s : State) :
    LeavesOthers .crCompute s (crCompute c challenge key mode param2 otp8 otp3 sn4 sn23 s) := by
  cases h : crComputeError challenge key otp8 otp3 sn4 sn23 with
  | some p =>
    rw [crCompute_of_error (h := h)]
    exact leavesOthers_record ..
  | none =>
    rw [crCompute_of_lengths (h := h)]
    exact leavesOthers_hashed (hop := .inl rfl) (hcmp := fun _ => rfl) ..

theorem crVerify_leavesOthers (c : Cfg) (challenge expected key : Bytes) (slot : Nat) (s : State) :
    LeavesOthers .crVerify s (crVerify c challenge expected key slot s) := by
  cases h : crVerifyError challenge expected key slot with
  | some p =>
    rw [crVerify_of_error (h := h)]
    exact leavesOthers_record ..
  | none =>
    rw [crVerify_of_operands (h := h)]
    exact leavesOthers_hashed (hop := .inr rfl) (hcmp := fun hne => absurd rfl hne) ..

theorem exec_leavesOthers (i : Instr) (s : State) (h : i.op ≠ .execute) :
    ∃ t, exec i s = .next t ∧ LeavesOthers i.op s t := by
  cases i with
  | serialize d => exact ⟨_, rfl, serialize_leavesOthers _ d s⟩
  | execute d => exact absurd rfl h
  | validate raw cap => exact ⟨_, rfl, validate_leavesOthers _ raw cap s⟩
  | crCompute challenge key mode param2 otp8 otp3 sn4 sn23 =>
    exact ⟨_, rfl, crCompute_leavesOthers _ challenge key mode param2 otp8 otp3 sn4 sn23 s⟩
  | crVerify challenge expected key slot => exact ⟨_, rfl, crVerify_leavesOthers _ challenge expected key slot s⟩

/-- Settles O52: `exec_leavesOthers`, by the four operations. -/
theorem engineUntouchedByOtherOperations : Obligations.EngineUntouchedByOtherOperations := by
  intro i s hop
  obtain ⟨t, hexec, ⟨heng, hatt⟩, hbus, ⟨hhost, hdelivered, hbusy⟩, htx, hrx, hmsgDig, hcmp⟩ :=
    exec_leavesOthers i s hop
  exact ⟨t, hexec, heng, hatt, hbus, hhost, hdelivered, hbusy, htx, hrx, hmsgDig, hcmp⟩

end Sys2Proof.Machine
end

section
/-! EXECUTE over any answers of the BUS: a payload that does not fit, and else a sequence of attempts (R180 to
R191). -/

namespace Sys2Proof.Machine

/-- Settles O26, by `execute_of_oversize`. -/
theorem executeOversize : Obligations.ExecuteOversize := by
  intro d s hbig
  exact congrArg Host.Outcome.next (execute_of_oversize Config.cfg d s hbig)

/-- Settles O27: `execute_spec` gives the sequence of attempts and the whole next state. -/
theorem executeRunsAttempts : Obligations.ExecuteRunsAttempts := by
  intro d s hfits
  obtain ⟨k, events, outcome, payload, hattempts, bus, heq⟩ :=
    execute_spec Config.cfg d s Config.validCfg.maxAttempts_pos hfits
  exact ⟨_, k, events, outcome, payload, congrArg Host.Outcome.next heq, hattempts, rfl, rfl, rfl⟩

/-- Settles O28: `execute_spec` gives the whole next state, and `Attempts.bounds` what the sequence of attempts can
end in. -/
theorem executeReturns : Obligations.ExecuteReturns := by
  intro d s hfits
  obtain ⟨k, events, outcome, payload, hattempts, bus, heq⟩ :=
    execute_spec Config.cfg d s Config.validCfg.maxAttempts_pos hfits
  obtain ⟨hpos, hle, hnak, hawake, hperr, hpayload⟩ := hattempts.bounds
  exact ⟨_, _, congrArg Host.Outcome.next heq, rfl, rfl, rfl, hpos, hle, hnak, hawake, hperr, rfl, hpayload,
    rfl, rfl, rfl, rfl, rfl, rfl, rfl, rfl, rfl, rfl⟩

/-- R190: these events have `writes` WRITE and `wakes` WAKE, and one WAIT and one READ for each complete write. -/
structure TraceCounts (writes wakes : Nat) (events : List Event) : Prop where
  write : events.countP Event.isWrite = writes
  wake  : events.countP Event.isWake = wakes
  wait  : events.countP Event.isWait = events.countP Event.isCompleteWrite
  read  : events.countP Event.isRead = events.countP Event.isCompleteWrite

theorem TraceCounts.append {m n m' n' : Nat} {events events' : List Event} (h : TraceCounts m n events)
    (h' : TraceCounts m' n' events') : TraceCounts (m + m') (n + n') (events ++ events') where
  write := by rw [List.countP_append, h.write, h'.write]
  wake  := by rw [List.countP_append, h.wake, h'.wake]
  wait  := by rw [List.countP_append, List.countP_append, h.wait, h'.wait]
  read  := by rw [List.countP_append, List.countP_append, h.read, h'.read]

theorem traceCounts_wake (ok : Bool) : TraceCounts 0 1 [.wake ok] := ⟨rfl, rfl, rfl, rfl⟩

/-- R183, R184: an attempt is one write, and a wait and a read exactly when the write is complete. -/
theorem Attempt.traceCounts {c : Cfg} {frame : Bytes} {texec : Nat} {events : List Event} {st : DeviceStatus}
    {payload : Bytes} (h : Attempt c frame texec events st payload) : TraceCounts 1 0 events := by
  cases h with
  | shortWrite n hn =>
    have hincomplete : Event.isCompleteWrite (.write frame n) = false := by simpa [Event.isCompleteWrite] using hn.ne
    have hnone : [Event.write frame n].countP Event.isCompleteWrite = 0 := by simp [hincomplete]
    exact ⟨rfl, rfl, hnone.symm, hnone.symm⟩
  | complete r hr =>
    have hcomplete : Event.isCompleteWrite (.write frame frame.length) = true := by simp [Event.isCompleteWrite]
    have hone : [Event.write frame frame.length, .wait texec, .read c.rspCap r].countP Event.isCompleteWrite = 1 := by
      rw [List.countP_cons_of_pos hcomplete]; rfl
    exact ⟨rfl, rfl, hone.symm, hone.symm⟩

/-- R189, R190: one wake between any two attempts of a sequence. -/
theorem Attempts.traceCounts {c : Cfg} {frame : Bytes} {texec left k : Nat} {events : List Event}
    {outcome : LibOutcome} {payload : Bytes} (h : Attempts c frame texec left k events outcome payload) :
    TraceCounts k (k - 1) events := by
  induction h with
  | success _ _ _ h => exact h.traceCounts
  | terminal _ _ _ _ h _ => exact h.traceCounts
  | exhausted _ _ _ h _ => exact h.traceCounts
  | again _ k ev rest _ _ _ ok _ h _ hrest ih =>
    have hcounts := h.traceCounts.append ((traceCounts_wake ok).append ih)
    have hpos := hrest.bounds.1
    rwa [show 1 + (0 + k) = k + 1 by omega, show 0 + (1 + (k - 1)) = k + 1 - 1 by omega] at hcounts

/-- Settles O29: the events are those of the sequence of attempts of `execute_spec`, counted by
`Attempts.traceCounts`. -/
theorem executeTraceCounts : Obligations.ExecuteTraceCounts := by
  intro d s t hfits hexec
  obtain ⟨k, events, outcome, payload, hattempts, bus, heq⟩ :=
    execute_spec Config.cfg d s Config.validCfg.maxAttempts_pos hfits
  obtain rfl := Host.Outcome.next.inj ((congrArg Host.Outcome.next heq).symm.trans hexec)
  have hcounts := hattempts.traceCounts
  have hpos := hattempts.bounds.1
  refine ⟨events, rfl, hcounts.write, ?_, hcounts.wait, hcounts.read⟩
  rw [hcounts.wake]
  exact Nat.sub_add_cancel hpos

end Sys2Proof.Machine
end

section
/-! EXECUTE over the BUS's scripts: attempts that are retried, and the attempt that ends it (R183 to R189). -/

namespace Sys2Proof.Machine

/-- R183, R186, R189: EXECUTE has come, after retried attempts fewer than `MAX_ATTEMPTS`, to the start of the next
one. -/
theorem execute_retried (c : Cfg) (d : CommandDescriptor) (s : State) (retried : List BusAttempt) (fuel : Nat)
    (ws : List Nat) (rs : List Bytes) (hfits : d.payload.length + 7 ≤ c.maxFrame)
    (hw : s.bus.writes = retried.map BusAttempt.count ++ ws)
    (hr : s.bus.reads = retried.flatMap BusAttempt.answers ++ rs)
    (hretried : ∀ a ∈ retried, a.Retried c (d.payload.length + 7))
    (hfuel : retried.length + (fuel + 1) = c.maxAttempts) :
    ∃ (oks : List Bool) (bus : BusAnswers) (rx : Bytes) (filled : Bool) (eng : EngState),
      oks.length = retried.length ∧ bus.writes = ws ∧ bus.reads = rs ∧
      (∀ script rest, s.bus.wakes = script ++ rest → script.length = retried.length →
        oks = script ∧ bus.wakes = rest ∧ bus.drawn = s.bus.drawn) ∧
      execute c d s = attemptLoop c d.texec (fuel + 1) { s with
        opActive := some .execute, engState := eng, attempt := retried.length
        txbuf := commandFrame c d, rxbuf := rx, held := { s.held with tx := true, rx := filled }
        bus := bus
        trace := s.trace ++ (retried.zip oks).flatMap
          (fun x => x.1.events c (commandFrame c d) d.texec ++ [.wake x.2]) } := by
  obtain ⟨oks, bus, rx, filled, eng, hlength, hwrites, hreads, hwakes, hloop⟩ :=
    attemptLoop_retried c d.texec ws rs retried { s with
      opActive := some .execute, engState := .idle, attempt := 0, txbuf := commandFrame c d
      held := { s.held with tx := true } } (fuel + 1) hw hr (by simpa using hretried) (by simp only [Nat.zero_add]; omega)
  refine ⟨oks, bus, rx, filled, eng, hlength, hwrites, hreads, hwakes, ?_⟩
  rw [execute_of_fits c d s hfits, ← hfuel, hloop]
  simp only [Nat.zero_add]

/-- R184, R185, R187, R191: the loop ends with an attempt that the BUS's scripts give the whole frame's count and an
answer of no retryable class. -/
theorem attemptLoop_answered (c : Cfg) (texec fuel n : Nat) (r : Bytes) (ws : List Nat) (rs : List Bytes)
    (st : DeviceStatus) (payload : Bytes) (s : State) (hw : s.bus.writes = n :: ws) (hn : s.txbuf.length ≤ n)
    (hr : s.bus.reads = r :: rs) (hlen : r.length ≤ c.rspCap) (hvalid : validateFn c r c.rspCap = (st, payload))
    (hst : classify st ≠ .retryable) :
    attemptLoop c texec (fuel + 1) s = { s with
      opActive := none, engState := if st = .success then .success else .fatalFailure
      attempt := s.attempt + 1, txbuf := [], rxbuf := [], held := { s.held with tx := false, rx := false }
      bus := { s.bus with writes := ws, reads := rs }
      trace := s.trace ++ [.write s.txbuf s.txbuf.length, .wait texec, .read c.rspCap r]
      result := some { Result.blank .execute with
        outcome := outcomeOf st, payload := payload, attempts := s.attempt + 1 } } := by
  have hattempt := runAttempt_scripted c texec n r ws rs s hw hn hr hlen
  have hpayload := validateFn_payload c r c.rspCap
  rw [hvalid] at hattempt hpayload
  have hempty : (if st = .success then payload else []) = payload := by
    split_ifs with hsuccess
    · rfl
    · exact (hpayload hsuccess).symm
  rw [attemptLoop_of_done (hst := hst) (he := hattempt), hempty]

/-- R188, R191: the loop ends with the last attempt allowed when the BUS's scripts make it a retryable one. -/
theorem attemptLoop_retried_last (c : Cfg) (texec fuel : Nat) (a : BusAttempt) (ws : List Nat) (rs : List Bytes)
    (s : State) (hw : s.bus.writes = a.count :: ws) (hr : s.bus.reads = a.answers ++ rs)
    (ha : a.Retried c s.txbuf.length) (hlast : c.maxAttempts ≤ s.attempt + 1) :
    attemptLoop c texec (fuel + 1) s = { s with
      opActive := none, engState := .fatalFailure
      attempt := s.attempt + 1, txbuf := [], rxbuf := [], held := { s.held with tx := false, rx := false }
      bus := { s.bus with writes := ws, reads := rs }
      trace := s.trace ++ a.events c s.txbuf texec
      result := some { Result.blank .execute with outcome := .commError, attempts := s.attempt + 1 } } := by
  obtain ⟨rx, filled, hattempt⟩ := runAttempt_retried c texec a ws rs s hw hr ha
  rw [attemptLoop_exhausted (h := hattempt) (hk := hlast)]
  rfl

/-- Settles O31: after the retried attempts (`execute_retried`) the loop ends with the next (`attemptLoop_answered`). -/
theorem executeRetriesThenAnswers : Obligations.ExecuteRetriesThenAnswers := by
  intro d s retried n ws r rs st payload hfits hw hn hr hlt hretried hlen hvalid hnak hcomm hawake
  obtain ⟨fuel, hfuel⟩ := Nat.exists_eq_add_of_lt hlt
  obtain ⟨oks, bus, rx, filled, eng, hlength, hwrites, hreads, hwakes, hexec⟩ :=
    execute_retried Config.cfg d s retried fuel (n :: ws) (r :: rs) hfits hw hr hretried hfuel.symm
  have hframe := commandFrame_length Config.cfg d
  have hst : classify st ≠ .retryable := by simp [classify_eq_retryable_iff, hnak, hcomm, hawake]
  refine ⟨oks, { bus with writes := ws, reads := rs }, hlength, rfl, rfl, hwakes,
    congrArg Host.Outcome.next (hexec.trans ((attemptLoop_answered Config.cfg d.texec fuel n r ws rs st payload _
      hwrites (hframe.trans_le hn) hreads hlen hvalid hst).trans ?_))⟩
  rw [hframe]
  rfl

/-- Settles O30: O31 with no retried attempt, where no wake is asked for and so the BUS's other answers stay. -/
theorem executeFirstAnswerDecides : Obligations.ExecuteFirstAnswerDecides := by
  intro d s n ws r rs st payload hfits hw hn hr hlen hvalid hst
  obtain ⟨hnak, hcomm, hawake⟩ : st ≠ .nak ∧ st ≠ .commError ∧ st ≠ .awake := by
    rcases hst with rfl | rfl | rfl | rfl | rfl <;> decide
  obtain ⟨oks, ⟨wakes, writes, reads, drawn⟩, -, rfl, rfl, hwakes, hexec⟩ :=
    executeRetriesThenAnswers d s [] n ws r rs st payload hfits hw hn hr Config.validCfg.maxAttempts_pos
      (by simp) hlen hvalid hnak hcomm hawake
  obtain ⟨-, rfl, rfl⟩ := hwakes [] s.bus.wakes rfl rfl
  simpa using hexec

/-- Settles O32: after the retried attempts but one (`execute_retried`) the loop ends with the last
(`attemptLoop_retried_last`). -/
theorem executeRetryBound : Obligations.ExecuteRetryBound := by
  intro d s retried last ws rs hfits hw hr hmax hretried hlast
  obtain ⟨oks, bus, rx, filled, eng, hlength, hwrites, hreads, hwakes, hexec⟩ :=
    execute_retried Config.cfg d s retried 0 _ _ hfits hw hr hretried hmax
  have hframe := commandFrame_length Config.cfg d
  refine ⟨oks, { bus with writes := ws, reads := rs }, hlength, rfl, rfl, hwakes,
    congrArg Host.Outcome.next (hexec.trans ((attemptLoop_retried_last Config.cfg d.texec 0 last ws rs _
      hwrites hreads (hframe ▸ hlast) hmax.ge).trans ?_))⟩
  rw [← hmax]
  rfl

/-- R183: after a short write the attempt has neither waited nor read. -/
theorem shortWrite_no_wait_no_read {c : Cfg} {frame : Bytes} {texec n : Nat} {e : Event}
    (h : e ∈ (BusAttempt.short n).events c frame texec) : e.isWait = false ∧ e.isRead = false := by
  obtain rfl := List.mem_singleton.1 h
  exact ⟨rfl, rfl⟩

/-- Settles O33: O32 with nothing but short writes. `executeTraceCounts` counts the writes, and no event is a wait or a
read (`shortWrite_no_wait_no_read`). -/
theorem executeShortWritesReadNothing : Obligations.ExecuteShortWritesReadNothing := by
  intro d s ns ws hfits hw hmax hshort
  obtain ⟨init, last, rfl⟩ : ∃ init last, ns = init ++ [last] := by
    refine (List.eq_nil_or_concat' ns).resolve_left (fun hnil => ?_)
    exact absurd (hmax ▸ Config.validCfg.maxAttempts_pos) (by simp [hnil])
  obtain ⟨oks, bus, -, hwrites, hreads, -, hexec⟩ :=
    executeRetryBound d s (init.map .short) (.short last) ws s.bus.reads hfits
      (by simpa [Function.comp_def, BusAttempt.count] using hw) (by simp [List.flatMap_map, BusAttempt.answers])
      (by simpa using hmax) (List.forall_mem_map.2 fun n hn => hshort n (List.mem_append_left _ hn))
      (hshort last (by simp))
  obtain ⟨events, htrace, hwrite, -⟩ := executeTraceCounts d s _ hfits hexec
  have hquiet : ∀ e ∈ events, e.isWait = false ∧ e.isRead = false := by
    obtain rfl := List.append_cancel_left ((List.append_assoc ..).symm.trans htrace)
    intro e he
    rcases List.mem_append.1 he with he | he
    · obtain ⟨⟨a, ok⟩, hzip, he⟩ := List.mem_flatMap.1 he
      obtain ⟨n, -, rfl⟩ := List.mem_map.1 (List.of_mem_zip hzip).1
      rcases List.mem_append.1 he with he | he
      · exact shortWrite_no_wait_no_read he
      · obtain rfl := List.mem_singleton.1 he
        exact ⟨rfl, rfl⟩
    · exact shortWrite_no_wait_no_read he
  exact ⟨_, events, hexec, htrace, hwrite, List.countP_eq_zero.2 fun e he => by simp [(hquiet e he).1],
    List.countP_eq_zero.2 fun e he => by simp [(hquiet e he).2], hwrites, hreads, rfl, rfl⟩

end Sys2Proof.Machine
end

section
/-! VALIDATE: the inputs it rejects (R222 to R226), the one it accepts (R221), what of an input it examines (R230), and
SERIALIZE's own frame given to it (R231). -/

namespace Sys2Proof.Machine

/-- Settles O20: an input that fails one of the validator's checks (`validateFn_of_failed_check`), the empty one
included, is COMM_ERROR with no payload. -/
theorem validateRejects : Obligations.ValidateRejects := by
  intro raw cap s hfails
  refine exec_validate_commError raw cap s ?_
  rcases hfails with rfl | ⟨b, r, rfl, hcheck⟩
  · rfl
  · exact validateFn_of_failed_check Config.cfg b r cap hcheck

/-- Settles O22, by `validateFn_cases`: COMM_ERROR is excluded, and a response frame within the capacity is left. -/
theorem validateAcceptsOnlyFrames : Obligations.ValidateAcceptsOnlyFrames := by
  intro raw cap s t r hexec hresult houtcome
  obtain rfl : validate Config.cfg raw cap s = t := Host.Outcome.next.inj hexec
  rw [validate_eq] at hresult
  obtain rfl := Option.some.inj hresult
  rcases validateFn_cases Config.cfg raw cap with hrejected | ⟨body, junk, hraw, h1, hcap, h255, -⟩
  · exact absurd (congrArg (fun v => outcomeOf v.1) hrejected) houtcome
  · have hlen : (BitVec.ofNat 8 (body.length + 3)).toNat = body.length + 3 := by
      rw [BitVec.toNat_ofNat]; omega
    exact ⟨BitVec.ofNat 8 (body.length + 3), body, junk, hraw, hlen, by omega, by omega⟩

/-- R230: the validator answers the same for an input as for the bytes of it that it examines: a length byte of 1 or
more is itself examined, and the checks read only the bytes that it covers. -/
theorem validateFn_examined (c : Cfg) (raw : Bytes) (cap : Nat) :
    validateFn c (examined raw) cap = validateFn c raw cap := by
  cases raw with
  | nil => rfl
  | cons b r =>
    cases hb : b.toNat with
    | zero =>
      have hnone : examined (b :: r) = [] := by rw [examined, hb, List.take_zero]
      rw [hnone, validateFn_of_failed_check c b r cap (.inl (by omega))]
      rfl
    | succ n =>
      have hcons : examined (b :: r) = b :: r.take n := by rw [examined, hb, List.take_succ_cons]
      have hcovered : (b :: r.take n).take b.toNat = (b :: r).take b.toNat := by
        rw [← hcons, examined, List.take_take, Nat.min_self]
      have hlength : (b :: r.take n).length < b.toNat ↔ (b :: r).length < b.toNat := by
        simp only [List.length_cons, List.length_take]; omega
      rw [hcons]
      simp only [validateFn, hcovered, hlength]

/-- Settles O23: the record is made of the validator's answer, which is that for the examined bytes
(`validateFn_examined`). -/
theorem validateDependsOnExaminedBytes : Obligations.ValidateDependsOnExaminedBytes := by
  intro raw raw' cap s s' hexamined
  have hanswer : validateFn Config.cfg raw cap = validateFn Config.cfg raw' cap := by
    rw [← validateFn_examined, hexamined, validateFn_examined]
  refine ⟨_, _, rfl, rfl, ?_⟩
  rw [validate_eq, validate_eq, hanswer]

/-- Settles O24: SERIALIZE's SUCCESS delivers `commandFrame`, a response frame whose body is the opcode, the parameters
and the payload (`commandFrame_eq_responseFrame`); a body of two bytes or more is SUCCESS with itself (R228). -/
theorem serializedFrameValidates : Obligations.SerializedFrameValidates := by
  intro d s₀ t₀ s r₀ cap hexec hresult hsuccess hcap
  obtain ⟨hframe, hfits⟩ := serialize_success d s₀ t₀ r₀ hexec hresult hsuccess
  have h255 := hfits.trans Config.validCfg.maxFrame_le
  rw [hframe, commandFrame_length] at hcap
  have hbody : (d.opcode :: d.param1 :: d.param2.toBytes ++ d.payload).length = d.payload.length + 4 := by
    simp [Byte2.toBytes]
  have h := exec_validate_responseFrame (d.opcode :: d.param1 :: d.param2.toBytes ++ d.payload) [] cap s
    (by omega) (by omega) (by omega)
  rw [List.append_nil, ← commandFrame_eq_responseFrame, ← hframe] at h
  exact h

end Sys2Proof.Machine
end

section
/-! CR_COMPUTE and CR_VERIFY: their whole effect with good operands, the reason for a wrong one, and what the message
and the record of CR_VERIFY tell apart (R250 to R267). -/

namespace Sys2Proof.Machine

/-- R130: the message with its two-byte fields written out. -/
theorem crMessage_eq (c : Cfg) (challenge key : Bytes) (mode : Byte) (param2 : Byte2) (otp8 otp3 sn4 sn23 : Bytes) :
    crMessage c challenge key mode param2 otp8 otp3 sn4 sn23 =
      key ++ challenge ++ [c.crOpcode, mode, param2.b0, param2.b1] ++ otp8 ++ otp3 ++ [c.sn8Const] ++ sn4 ++
        [c.sn01Const.b0, c.sn01Const.b1] ++ sn23 := by
  simp [crMessage, Byte2.toBytes]

/-- Settles O34: `crCompute_of_lengths` gives the whole next state, with R130's `crMessage` for the message. -/
theorem crComputeDigestsMessage : Obligations.CrComputeDigestsMessage := by
  intro challenge key mode param2 otp8 otp3 sn4 sn23 s hchallenge hkey hotp8 hotp3 hsn4 hsn23
  have hchecks := (crComputeError_eq_none_iff challenge key otp8 otp3 sn4 sn23).2
    ⟨hchallenge, hkey, hotp8, hotp3, hsn4, hsn23⟩
  rw [← crMessage_eq]
  exact congrArg Host.Outcome.next (crCompute_of_lengths (h := hchecks) ..)

/-- R251: when some length is wrong, the reason is that of the first wrong one: if the first five are right, the sixth
is the wrong one. -/
theorem crComputeError_of_wrong_length (challenge key otp8 otp3 sn4 sn23 : Bytes)
    (h : ¬ (challenge.length = 32 ∧ key.length = 32 ∧ otp8.length = 8 ∧ otp3.length = 3 ∧ sn4.length = 4 ∧
      sn23.length = 2)) :
    crComputeError challenge key otp8 otp3 sn4 sn23 = some (
      if challenge.length ≠ 32 then .badLenChallenge
      else if key.length ≠ 32 then .badLenKey
      else if otp8.length ≠ 8 then .badLenOtp8
      else if otp3.length ≠ 3 then .badLenOtp3
      else if sn4.length ≠ 4 then .badLenSn4
      else .badLenSn23) := by
  simp only [crComputeError, firstViolated, beq_iff_eq, ite_not, apply_ite some]
  split_ifs with hchallenge hkey hotp8 hotp3 hsn4 hsn23
  · exact absurd ⟨hchallenge, hkey, hotp8, hotp3, hsn4, hsn23⟩ h
  all_goals rfl

/-- Settles O36: `crCompute_of_error` with the reason of `crComputeError_of_wrong_length`. -/
theorem crComputeLengthErrors : Obligations.CrComputeLengthErrors := by
  intro challenge key mode param2 otp8 otp3 sn4 sn23 s hwrong
  exact congrArg Host.Outcome.next
    (crCompute_of_error (h := crComputeError_of_wrong_length challenge key otp8 otp3 sn4 sn23 hwrong) ..)

/-- Settles O37: `crVerify_of_operands` gives the whole next state; the digest has 32 bytes, as the expected response
has, so the fixed-time compare tells equality (`fixedTimeCompare_fst`) in 32 steps and the test
(`fixedTimeCompare_snd`). -/
theorem crVerifyMatches : Obligations.CrVerifyMatches := by
  intro challenge expected key slot s hslot hchallenge hkey hexpected m
  have hchecks := (crVerifyError_eq_none_iff challenge expected key slot).2 ⟨hslot, hchallenge, hkey, hexpected⟩
  have hlength : (Config.cfg.digest m).toList.length = expected.length := by simp [hexpected]
  have hmatch := fixedTimeCompare_fst _ expected hlength
  have hsteps := fixedTimeCompare_snd _ expected hlength
  rw [Vector.length_toList] at hsteps
  rw [← hmatch, ← hsteps]
  exact congrArg Host.Outcome.next (crVerify_of_operands (h := hchecks) ..)

/-- R261, R263: when some operand is bad, the reason is that of the first bad one, the slot before the lengths: if the
first three are good, the fourth is the bad one. -/
theorem crVerifyError_of_bad_operand (challenge expected key : Bytes) (slot : Nat)
    (h : ¬ (slot < 16 ∧ challenge.length = 32 ∧ key.length = 32 ∧ expected.length = 32)) :
    crVerifyError challenge expected key slot = some (
      if 16 ≤ slot then .badSlot
      else if challenge.length ≠ 32 then .badLenChallenge
      else if key.length ≠ 32 then .badLenKey
      else .badLenExpected) := by
  simp only [crVerifyError, firstViolated, decide_eq_true_eq, beq_iff_eq, ← Nat.not_lt, ite_not, apply_ite some]
  split_ifs with hslot hchallenge hkey hexpected
  · exact absurd ⟨hslot, hchallenge, hkey, hexpected⟩ h
  all_goals rfl

/-- Settles O38: `crVerify_of_error` with the reason of `crVerifyError_of_bad_operand`. -/
theorem crVerifyOperandErrors : Obligations.CrVerifyOperandErrors := by
  intro challenge expected key slot s hbad
  exact congrArg Host.Outcome.next
    (crVerify_of_error (h := crVerifyError_of_bad_operand challenge expected key slot hbad) ..)

/-- Settles O40: CR_VERIFY's message is by definition CR_COMPUTE's at mode 0x00, the encoded slot and zero fields, so
it compares the digest with itself. -/
theorem verifySymmetry : Obligations.VerifySymmetry := by
  intro challenge key slot s s' hchallenge hkey hslot
  have hcompute := (crComputeError_eq_none_iff challenge key (zeros 8) (zeros 3) (zeros 4) (zeros 2)).2
    ⟨hchallenge, hkey, rfl, rfl, rfl, rfl⟩
  have hverify := (crVerifyError_eq_none_iff challenge
    (Config.cfg.digest (crVerifyMessage Config.cfg challenge key slot)).toList key slot).2
    ⟨hslot, hchallenge, hkey, Vector.length_toList⟩
  refine ⟨_, _, _, _, congrArg Host.Outcome.next (crCompute_of_lengths (h := hcompute) ..), rfl,
    congrArg Host.Outcome.next (crVerify_of_operands (h := hverify) ..), rfl, congrArg some ?_⟩
  exact (fixedTimeCompare_fst _ _ rfl).trans (decide_eq_true rfl)

/-- R265: a SUCCESS of CR_VERIFY writes `match`, and every other field at its "not written" value. -/
theorem crVerify_success (challenge expected key : Bytes) (slot : Nat) (s t : State) (r : Result)
    (h : exec (.crVerify challenge expected key slot) s = .next t) (hr : t.result = some r)
    (hsuccess : r.outcome = .success) : r = { Result.blank .crVerify with matched := r.matched } := by
  obtain rfl := Host.Outcome.next.inj h
  cases hchecks : crVerifyError challenge expected key slot with
  | some p =>
    rw [crVerify_of_error (h := hchecks)] at hr
    obtain rfl := Option.some.inj hr
    cases hsuccess
  | none =>
    rw [crVerify_of_operands (h := hchecks)] at hr
    obtain rfl := Option.some.inj hr
    rfl

/-- Settles O43, by `crVerify_success`: the two records are one function of `match`. -/
theorem crVerifyExposesMatchOnly : Obligations.CrVerifyExposesMatchOnly := by
  intro challenge expected key challenge' expected' key' slot slot' s s' t t' r r' hexec hresult hexec' hresult'
    hsuccess hsuccess' hmatched
  rw [crVerify_success challenge expected key slot s t r hexec hresult hsuccess,
    crVerify_success challenge' expected' key' slot' s' t' r' hexec' hresult' hsuccess', hmatched]

/-- R262: the encoded slot stands in CR_VERIFY's message between fields that do not depend on the slot. -/
theorem crVerifyMessage_slotEnc_inj (c : Cfg) (challenge key : Bytes) (slot slot' : Nat)
    (h : crVerifyMessage c challenge key slot = crVerifyMessage c challenge key slot') :
    c.slotEnc slot = c.slotEnc slot' := by
  refine toBytes_inj _ _ ?_
  simpa [crVerifyMessage, crMessage] using h

/-- Settles O44: equal messages would carry equal encoded slots (`crVerifyMessage_slotEnc_inj`), and R10 makes
SLOT_ENC injective. -/
theorem differentSlotsDifferentMessages : Obligations.DifferentSlotsDifferentMessages := by
  intro challenge expected key slot slot' s hslot hslot' hne hchallenge hkey hexpected
  have hchecks := (crVerifyError_eq_none_iff challenge expected key slot).2 ⟨hslot, hchallenge, hkey, hexpected⟩
  have hchecks' := (crVerifyError_eq_none_iff challenge expected key slot').2 ⟨hslot', hchallenge, hkey, hexpected⟩
  refine ⟨_, _, _, _, _, _, congrArg Host.Outcome.next (crVerify_of_operands (h := hchecks) ..),
    congrArg Host.Outcome.next (crVerify_of_operands (h := hchecks') ..), rfl, rfl, fun hsame => hne ?_⟩
  exact Config.validCfg.slot_inj slot hslot slot' hslot' (crVerifyMessage_slotEnc_inj _ _ _ _ _ hsame)

end Sys2Proof.Machine
end

section
/-! The exceptions: what a programming error leaves (R302, R303), and that no step takes an event back (R307,
R341). -/

namespace Sys2Proof.Machine

/-- R303, R181: the state an operation ends in when it raises `ProgrammingError(p)` in `s`. -/
def afterProgrammingError (op : OpName) (p : PErr) (s : State) : State :=
  { s with
    opActive := none
    result := some { Result.blank op with outcome := .programmingError, reason := some p }
    engState := if op = .execute then .idle else s.engState
    attempt := if op = .execute then 0 else s.attempt }

/-- An operation `op` started in `s` has ended in the given state: by a programming error that it may raise, or with a
record of another outcome. -/
inductive Ends (op : OpName) (s : State) : State → Prop where
  | raised (p : PErr) (hraise : mayRaise op p = true) : Ends op s (afterProgrammingError op p s)
  | written {t : State} (r : Result) (hresult : t.result = some r) (hother : r.outcome ≠ .programmingError) :
      Ends op s t

theorem outcomeOf_ne_programmingError (st : DeviceStatus) : outcomeOf st ≠ .programmingError := by
  cases st <;> decide

theorem serialize_ends (c : Cfg) (d : CommandDescriptor) (s : State) : Ends .serialize s (serialize c d s) := by
  rcases Nat.lt_or_ge c.maxFrame (d.payload.length + 7) with hbig | hfits
  · rw [serialize_of_oversize c d s hbig]
    exact .raised .oversize rfl
  · rw [serialize_of_fits c d s hfits]
    exact .written _ rfl (by simp [Result.blank])

theorem execute_ends (c : Cfg) (d : CommandDescriptor) (s : State) (hpos : 1 ≤ c.maxAttempts) :
    Ends .execute s (execute c d s) := by
  rcases Nat.lt_or_ge c.maxFrame (d.payload.length + 7) with hbig | hfits
  · rw [execute_of_oversize c d s hbig]
    exact .raised .oversize rfl
  · obtain ⟨k, events, outcome, payload, hattempts, bus, heq⟩ := execute_spec c d s hpos hfits
    obtain ⟨-, -, -, -, hother, -⟩ := hattempts.bounds
    rw [heq]
    exact .written _ rfl hother

theorem validate_ends (c : Cfg) (raw : Bytes) (cap : Nat) (s : State) : Ends .validate s (validate c raw cap s) := by
  rw [validate_eq]
  exact .written _ rfl (outcomeOf_ne_programmingError _)

theorem crCompute_ends (c : Cfg) (challenge key : Bytes) (mode : Byte) (param2 : Byte2)
    (otp8 otp3 sn4 sn23 : Bytes) (s : State) :
    Ends .crCompute s (crCompute c challenge key mode param2 otp8 otp3 sn4 sn23 s) := by
  cases h : crComputeError challenge key otp8 otp3 sn4 sn23 with
  | some p =>
    rw [crCompute_of_error (h := h)]
    exact .raised p (crComputeError_mayRaise h)
  | none =>
    rw [crCompute_of_lengths (h := h)]
    exact .written _ rfl (by simp [Result.blank])

theorem crVerify_ends (c : Cfg) (challenge expected key : Bytes) (slot : Nat) (s : State) :
    Ends .crVerify s (crVerify c challenge expected key slot s) := by
  cases h : crVerifyError challenge expected key slot with
  | some p =>
    rw [crVerify_of_error (h := h)]
    exact .raised p (crVerifyError_mayRaise h)
  | none =>
    rw [crVerify_of_operands (h := h)]
    exact .written _ rfl (by simp [Result.blank])

theorem ends_of_exec (i : Instr) (s t : State) (h : exec i s = .next t) : Ends i.op s t := by
  cases i with
  | serialize d => cases h; exact serialize_ends _ d s
  | execute d => cases h; exact execute_ends _ d s Config.validCfg.maxAttempts_pos
  | validate raw cap => cases h; exact validate_ends _ raw cap s
  | crCompute challenge key mode param2 otp8 otp3 sn4 sn23 =>
    cases h; exact crCompute_ends _ challenge key mode param2 otp8 otp3 sn4 sn23 s
  | crVerify challenge expected key slot => cases h; exact crVerify_ends _ challenge expected key slot s

/-- Settles O48: of the two ways an operation can end (`ends_of_exec`), only a raised programming error writes this
outcome, and `afterProgrammingError` is the whole state it leaves. -/
theorem programmingErrorWritesNothingElse : Obligations.ProgrammingErrorWritesNothingElse := by
  intro i s t r hexec hresult houtcome
  cases ends_of_exec i s t hexec with
  | raised p hraise =>
    obtain rfl := Option.some.inj hresult
    exact ⟨p, hraise, rfl, rfl⟩
  | written r' hresult' hother =>
    obtain rfl := Option.some.inj (hresult'.symm.trans hresult)
    exact absurd houtcome hother

/-- Settles O51, by the seven things a step can do (`step_cases`): an operation adds its events (`returns_of_exec`), a
reset during one the first of them (`resetDuring_trace`), and every other move none. -/
theorem eventsAreNeverUndone : Obligations.EventsAreNeverUndone := by
  intro s t hstep
  obtain ⟨-, hcase⟩ := step_cases s t hstep
  rcases hcase with ⟨-, rfl⟩ | ⟨bytes, rest, i, -, -, hexec⟩ | ⟨bytes, k, rest, i, u, -, -, hexec, rfl⟩ |
    ⟨rest, -, rfl⟩ | ⟨rest, r, -, -, rfl⟩ | ⟨rest, -, rfl⟩ | ⟨rest, use, -, rfl⟩
  case inr.inl =>
    obtain ⟨events, htrace, -⟩ := (returns_of_exec i _ t hexec).events
    exact ⟨events, htrace⟩
  case inr.inr.inl =>
    obtain ⟨events, htrace, -⟩ := (returns_of_exec i _ u hexec).events
    exact ⟨events.take k, resetDuring_trace _ u k events htrace⟩
  all_goals exact ⟨[], (List.append_nil _).symm⟩

end Sys2Proof.Machine
end

section
/-! Reset in any state (R340, R341), the step without a move (R342), and the constraints on the configuration (R343). -/

namespace Sys2Proof.Machine

/-- A reset is taken in any state, from the state with the move taken off. -/
theorem step_reset (s : State) (rest : List HostMove) (hh : s.host = .reset :: rest) :
    step s = .next (hostReset { s with host := rest }) := by
  simp only [step, stepOver, fetch, hh]

/-- An idle state for which the HOST has no move is what a step answers. -/
theorem step_noMove (s : State) (ha : s.opActive = none) (hh : s.host = []) : step s = .next s := by
  simp only [step, stepOver, fetch, whenIdle, ha, hh]

/-- R47, R340: what a reset sets, and with it all that it leaves. -/
theorem hostReset_eq (s : State) : hostReset s = { s with
    opActive := none, engState := .idle, attempt := 0, txbuf := [], rxbuf := [], msgbuf := [], digbuf := []
    held := Held.none, result := none } := by
  simp only [hostReset, release_eq, State.reset]

/-- Settles O1: the fields are as `State.reset` gives them, and the HOST's read is `hostReadResult` of a state whose
RESULT is not valid. -/
theorem resetLeavesStatedValues : Obligations.ResetLeavesStatedValues := by
  have hfault : step { State.reset with host := [.readResult] } = .fault .resultNotValid := by
    rw [step_readResult _ [] rfl rfl, hostReadResult_of_none _ rfl]
  exact ⟨rfl, rfl, rfl, rfl, rfl, rfl, rfl, rfl, rfl, hfault⟩

/-- Settles O2: `step_reset` asks nothing of OP_ACTIVE, and `hostReset_eq` is the whole next state. -/
theorem resetInAnyState : Obligations.ResetInAnyState := by
  intro s rest hmove
  rw [step_reset s rest hmove, hostReset_eq]

/-- Settles O4, which is `step_noMove`. -/
theorem noMoveNothingHappens : Obligations.NoMoveNothingHappens := by
  intro s hidle hnone
  exact step_noMove s hidle hnone

/-- Settles O53: a configuration is instantiated together with the evidence for each constraint (`ValidCfg`). -/
theorem configurationMeetsConstraints : Obligations.ConfigurationMeetsConstraints :=
  ⟨Config.validCfg.maxFrame_ge, Config.validCfg.maxFrame_le, Config.validCfg.maxAttempts_pos,
    Config.validCfg.rspCap_ge, Config.validCfg.rspCap_le, Config.validCfg.status_zero, Config.validCfg.status_nak,
    Config.validCfg.status_inj, Config.validCfg.slot_inj, Config.validCfg.detects⟩

end Sys2Proof.Machine
end

section
/-! The time CR_VERIFY's compare takes (R264, R356). -/

namespace Sys2Proof.Machine

/-- Settles O39: `crVerifyMatches` (O37) gives the compare log of each run, and what it adds names no operand. -/
theorem crVerifyFixedTime : Obligations.CrVerifyFixedTime := by
  intro challenge expected key challenge' expected' key' slot slot' s s' hslot hchallenge hkey hexpected
    hslot' hchallenge' hkey' hexpected'
  have hrun := crVerifyMatches challenge expected key slot s hslot hchallenge hkey hexpected
  have hrun' := crVerifyMatches challenge' expected' key' slot' s' hslot' hchallenge' hkey' hexpected'
  refine ⟨_, _, _, hrun, hrun', rfl, rfl, by simp, by simp, fun j hj => ?_⟩
  simp [List.getElem?_append_left, hj]

end Sys2Proof.Machine
end

section
/-! A reset during an operation (R341): the events issued before it stay, and of the BUS's coming answers those left by
these events (log entry 6). -/

namespace Sys2Proof.Machine

/-- R78, log entry 6: between `s` and `t` some events were issued, and of the answers of the BUS just those to these
events are used up. -/
def AnswersUsed (s t : State) : Prop :=
  ∃ events, t.trace = s.trace ++ events ∧ t.bus = events.foldl BusAnswers.afterEvent s.bus

theorem AnswersUsed.refl (s : State) : AnswersUsed s s := ⟨[], by simp⟩

theorem AnswersUsed.trans {s t u : State} (h₁ : AnswersUsed s t) (h₂ : AnswersUsed t u) : AnswersUsed s u := by
  obtain ⟨ev₁, htrace₁, hbus₁⟩ := h₁
  obtain ⟨ev₂, htrace₂, hbus₂⟩ := h₂
  exact ⟨ev₁ ++ ev₂, by rw [htrace₂, htrace₁, List.append_assoc], by rw [hbus₂, hbus₁, List.foldl_append]⟩

/-- An operation that issues no event and uses no answer. -/
theorem answersUsed_of_no_event {s t : State} (htrace : t.trace = s.trace) (hbus : t.bus = s.bus) :
    AnswersUsed s t :=
  ⟨[], by simpa using htrace, hbus⟩

/-- R82: a HASH is answered by the DIGEST provider and not by the BUS. -/
theorem HashesOperandsAlone.answersUsed {c : Cfg} {run : State → State} {r : Result} {events : List Event}
    (h : HashesOperandsAlone c run r events) (s : State) : AnswersUsed s (run s) := by
  refine ⟨events, h.trace s, ?_⟩
  rcases h.oneHash with rfl | ⟨m, -, rfl⟩ <;> exact h.bus s

/-- R182 to R184: an attempt is a WRITE, and after a complete one a WAIT and a READ. -/
theorem runAttempt_answersUsed (c : Cfg) (texec : Nat) (s : State) : AnswersUsed s (runAttempt c texec s).2 := by
  by_cases h : (s.bus.nextWrite s.txbuf.length).1 = s.txbuf.length
  · rw [runAttempt_of_complete c texec s h]
    exact ⟨_, rfl, rfl⟩
  · rw [runAttempt_of_short c texec s h]
    exact ⟨_, rfl, rfl⟩

theorem rewake_answersUsed (s : State) : AnswersUsed s (rewake s) := ⟨_, rewake_trace s, rfl⟩

theorem attemptLoop_answersUsed (c : Cfg) (texec fuel : Nat) :
    ∀ s : State, AnswersUsed s (attemptLoop c texec fuel s) := by
  induction fuel with
  | zero => exact fun s => .refl s
  | succ fuel ih =>
    intro s
    have hattempt := runAttempt_answersUsed c texec s
    rcases hrun : runAttempt c texec s with ⟨e, u⟩
    rw [hrun] at hattempt
    cases e with
    | done outcome payload =>
      rw [attemptLoop_done c texec fuel s u outcome payload hrun]
      exact hattempt
    | retry =>
      rcases Nat.lt_or_ge u.attempt c.maxAttempts with hleft | hused
      · rw [attemptLoop_again c texec fuel s u hrun hleft]
        exact (hattempt.trans (rewake_answersUsed u)).trans (ih (rewake u))
      · rw [attemptLoop_exhausted c texec fuel s u hrun hused]
        exact hattempt

theorem execute_answersUsed (c : Cfg) (d : CommandDescriptor) (s : State) : AnswersUsed s (execute c d s) := by
  rcases Nat.lt_or_ge c.maxFrame (d.payload.length + 7) with hbig | hfits
  · rw [execute_of_oversize c d s hbig]
    exact .refl s
  · rw [execute_of_fits c d s hfits]
    exact attemptLoop_answersUsed c d.texec c.maxAttempts _

theorem answersUsed_of_exec (i : Instr) (s t : State) (h : exec i s = .next t) : AnswersUsed s t := by
  cases i with
  | serialize d =>
    cases h
    exact answersUsed_of_no_event (serialize_trace _ d s) (serialize_leavesOthers _ d s).bus
  | execute d => cases h; exact execute_answersUsed _ d s
  | validate raw cap =>
    cases h
    exact answersUsed_of_no_event (validate_trace _ raw cap s) (validate_leavesOthers _ raw cap s).bus
  | crCompute challenge key mode param2 otp8 otp3 sn4 sn23 =>
    cases h
    obtain ⟨r, events, hash⟩ := crCompute_hashesOperandsAlone Config.cfg challenge key mode param2 otp8 otp3 sn4 sn23
    exact hash.answersUsed s
  | crVerify challenge expected key slot =>
    cases h
    obtain ⟨r, events, hash⟩ := crVerify_hashesOperandsAlone Config.cfg challenge expected key slot
    exact hash.answersUsed s

/-- R341: the whole state a reset during an operation leaves, from the events the operation would have issued. -/
theorem resetDuring_eq (s t : State) (k : Nat) (events : List Event) (h : t.trace = s.trace ++ events) :
    resetDuring s t k = { s with
      opActive := none, engState := .idle, attempt := 0, txbuf := [], rxbuf := [], msgbuf := [], digbuf := []
      held := Held.none, result := none
      trace := s.trace ++ events.take k
      bus := (events.take k).foldl BusAnswers.afterEvent s.bus } := by
  simp only [resetDuring, h, List.drop_left, hostReset_eq]

/-- Settles O3: the uninterrupted run accounts for its events and their answers (`answersUsed_of_exec`), and the step
is `resetDuring` of it, which keeps the first `k` of them (`resetDuring_eq`). -/
theorem resetDuringOperationKeepsIssuedEvents : Obligations.ResetDuringOperationKeepsIssuedEvents := by
  intro s u bytes k rest i hidle hmove hdecode hexec
  obtain ⟨events, htrace, hbus⟩ := answersUsed_of_exec i _ u hexec
  refine ⟨events, htrace, hbus, ?_⟩
  rw [step_requestThenReset s u bytes k rest i hidle hmove hdecode hexec, resetDuring_eq _ u k events htrace]

end Sys2Proof.Machine
end
